-- ==== Sys2Proof/Word.lean ====
section
/-! DEFINITION. The words of SEG7SR: the byte, the 16-bit frame, the 17-bit command word and the 3-bit event
code (spec/30_encoding.md R80, R84, R86, R89). All are unsigned, bit 0 the least significant
(spec/00_scope.md R9). -/

namespace Sys2Proof

/-- A pattern byte (format P, R80) or a mask byte (format M, R82). -/
abbrev Byte := BitVec 8

/-- A serial frame `segments ++ digitSelect` (format F, R84); also the receiver's `SR` and `Q` (R37, R38). -/
abbrev Frame := BitVec 16

/-- A command word (formats E and T, R86). -/
abbrev CommandWord := BitVec 17

/-- An event code `L1 L0 V` (format U, R89). -/
abbrev EventCode := BitVec 3

end Sys2Proof
end

