-- ==== Sys2Proof/Config.lean ====
section
/-! DEFINITION. The parameters of spec/00_scope.md R6 and the free values of the model.

Parameters the source fixes are constants here. OPEN parameters with a default (`PATTERN`, `MASK`, `RX_EDGE`,
`SCALE`, `RESET_LINES`) stand in `State` as constants of a machine (or, for `RESET_LINES`, in `PowerOn`), so a
statement about every state holds for every choice; the spec's defaults are what `State.reset` puts there.
The OPEN parameter without a default (`ADC_DIV`) and everything the outside world supplies beyond the inputs
listed in `State` are opaque: nothing can be proved of their values. -/

namespace Sys2Proof

/-- R6 `N_DIGITS`: the pattern table has exactly 10 entries (spec/10_state.md R21). -/
def Config.nDigits : Nat := 10

/-- R6 `N_POS`: the mask table has exactly 4 entries (spec/10_state.md R26). -/
def Config.nPos : Nat := 4

/-- R6 `FRAME_W`: 16 bits per frame (spec/20_memory.md R55). -/
def Config.frameWidth : Nat := 16

/-- R6 `DP_BIT`: the decimal-point bit of a pattern byte, flagged unverified by the source (U2; log 19). -/
def Config.dpBit : Nat := 7

/-- The clock edge on which the receiver shifts: R6 `RX_EDGE`, spec/42_receiver_and_display.md R161. -/
inductive Edge
  | rising
  | falling
  deriving DecidableEq, Repr, Inhabited

/-- The divisor of the 16-bit analog fraction: R6 `ADC_DIV`, 65535 or 65536, no default (D27). -/
inductive AdcDiv
  | by65535
  | by65536
  deriving DecidableEq, Repr, Inhabited

/-- The arithmetic of R6 `SCALE` (spec/44_host_clock_and_arbiter.md R210, the columns of vectors V1 to V6).
`exact` is the spec's default; the three IEEE evaluations are from general knowledge (G6; log 5); `unstated`
is any other arithmetic: its result is a free natural in 0..3300. -/
inductive ScaleArith
  | exact
  | binary64
  | binary32
  | mixed
  | unstated
  deriving DecidableEq, Repr, Inhabited

/-- An analog sample as a rational, `num / (denPred + 1)` (R6 `ADC_DIV`: "the model takes the sample as a rational
in [0, 1]"; R209, R222). The denominator is not zero and the numerator is at most the denominator, so a sample
outside [0.0, 1.0] does not exist. -/
structure Sample where
  denPred : Nat
  num : Fin (denPred + 2)
  deriving DecidableEq, Repr

/-- The denominator of a sample. -/
def Sample.den (x : Sample) : Nat := x.denPred + 1

/-- The common-cathode codes `CC` of spec/10_state.md R23 [from general knowledge, not in source; log 3]. -/
def Config.commonCathode : Vector Byte 10 :=
  #v[0x3F, 0x06, 0x5B, 0x4F, 0x66, 0x6D, 0x7D, 0x07, 0x7F, 0x6F]

/-- R6, R23: the default `PATTERN` (D4; log 3). -/
def Config.defaultPattern : Vector Byte 10 :=
  #v[0xC0, 0xF9, 0xA4, 0xB0, 0x99, 0x92, 0x82, 0xF8, 0x80, 0x90]

/-- R6, R27: the default `MASK`, `MASK[p] = 1 << p` (D6; log 3). -/
def Config.defaultMask : Vector Byte 4 := #v[0x01, 0x02, 0x04, 0x08]

/-- R6 `ADC_DIV`: open, no default (D27; log 6). -/
opaque Config.adcDiv : AdcDiv

/-- The result of an arithmetic the spec does not describe (R210, D22; log 5): a free natural in 0..3300. -/
opaque Config.scaleUnstated : Sample → Fin 3301

/-- Whether a tick is delivered at the n-th boundary for which `State.inputs` lists nothing (D28; log 7). -/
opaque Config.freeTick : Nat → Bool

/-- The level of the reset input at that boundary (R221; log 7). -/
opaque Config.freeResetLevel : Nat → Bool

/-- The level of the mode input at that boundary (R221; log 7). -/
opaque Config.freeModeLevel : Nat → Bool

/-- The level of the unused spare input at that boundary (R221; log 7). -/
opaque Config.freeSpareLevel : Nat → Bool

/-- The raw analog count at that boundary (R222; logs 6 and 7). -/
opaque Config.freeAdcCount : Nat → BitVec 16

/-- The order of the main loop's two accesses to ClockState at that boundary (R206, D20; log 7). -/
opaque Config.freeMinutesFirst : Nat → Bool

end Sys2Proof
end

