-- ==== Sys2Proof/Machine/State.lean ====
section
/-! DEFINITION. The state of the whole system as plain data: spec/10_state.md R20 lists the block, the trace, the
receiver and ClockState; spec/60_exceptions.md R246 names the main loop's position and locals; the last two
fields hold what the outside world supplies (R42). Every reset value is in INVENTORY.md and the log. -/

namespace Sys2Proof.Machine

open Sys2Proof

/-- The three output lines (spec/10_state.md R28). -/
inductive Line
  | data
  | clock
  | latch
  deriving DecidableEq, Repr

/-- One write to one line (spec/10_state.md R36): `true` is level 1 (spec/00_scope.md R11). -/
structure Event where
  line : Line
  level : Bool
  deriving DecidableEq, Repr

/-- `PHASE` (spec/10_state.md R32): `IDLE`, or the index 0..49 of the next line event. -/
inductive Phase
  | idle
  | event (n : Fin 50)
  deriving DecidableEq, Repr

/-- The host operations that have no encoding (spec/30_encoding.md R91), and the single steps the spec divides them
into. A list of them is the main loop's position with its locals (R246; log 8). -/
inductive HostOp
  /-- The top of the main loop's body: poll the reset button (R207, R208). -/
  | pollReset
  /-- Poll the mode button (R209, R211). -/
  | pollMode
  /-- `CLKRESET`: two writes in either order (R202, R206). -/
  | clkReset
  /-- The write `seconds <- 0` that is still to be made (R206). -/
  | clearSeconds
  /-- The write `minutes <- 0` that is still to be made (R206). -/
  | clearMinutes
  /-- Read the analog input and render the scaled voltage (R209). -/
  | sampleAnalog
  /-- The two unsynchronised reads of ClockState, in either order (R211, R206). -/
  | readTime
  /-- The second read is of `seconds`; `minutes` has been read (R206). -/
  | readSeconds (minutesRead : Nat)
  /-- The second read is of `minutes`; `seconds` has been read (R206). -/
  | readMinutes (secondsRead : Nat)
  /-- `RENDER value, show, pos` (spec/43_render.md R180). -/
  | render (value : Int) (showPoint : Bool) (pos : Int)
  /-- `SHOWDIGIT i, digit, dp` (R183). -/
  | showDigit (i : Fin 4) (digit : Nat) (dp : Bool)
  /-- `WAIT ms` (R185). -/
  | wait (ms : Nat)
  /-- Present one command word to the block and wait until it is performed (R86, R287). -/
  | command (w : CommandWord)
  deriving DecidableEq, Repr

/-- What the host can read at one instant (R221, R222): the levels of the three inputs (a button is asserted when
its level is 0) and the analog sample; and which of two unordered accesses to ClockState is made first (R206). -/
structure Pins where
  resetLevel : Bool
  modeLevel : Bool
  spareLevel : Bool
  sample : Sample
  minutesFirst : Bool
  deriving DecidableEq, Repr

/-- What power-on leaves in the state the spec calls unknown after reset (spec/10_state.md R41): the parameter
`RESET_LINES` and the contents of `SEG`, `SEL`, `SR`, `Q`; and the host's byte `segOut` (log 2). -/
structure PowerOn where
  data : Bool
  clock : Bool
  latch : Bool
  seg : Byte
  sel : Byte
  segOut : Byte
  sr : Frame
  q : Frame
  deriving DecidableEq, Repr

/-- Who moves at one step boundary (log 7). -/
inductive Move
  /-- The periodic tick is delivered here (spec/60_exceptions.md R244). -/
  | tick
  /-- A command word is presented on the block's command strobe by something other than the main loop
  (spec/41_transmit.md R137, R151; spec/40_encode.md R113). -/
  | strobe (w : CommandWord)
  /-- Power is lost and returns (spec/60_exceptions.md R254, spec/70_reset_and_hazards.md R270). -/
  | powerCycle (p : PowerOn)
  /-- No tick: the serializer moves if a frame is in progress, else the main loop, which sees these inputs. -/
  | go (pins : Pins)
  deriving DecidableEq, Repr

/-- The machine never faults: "The hardware raises no exception, trap or fault of any kind" (R240; log 13). A
closed inductive with no constructor. -/
inductive Fault
  deriving DecidableEq, Repr

/-- The stops of spec/60_exceptions.md R241, a closed list of four, and the host's name for an unmodelled row. All
are safe: the model stops where the spec gives no meaning. -/
inductive Refusal
  /-- Raised by no meaning: the name under which `exec` would reject an instruction that has none. Safe. -/
  | notModelled (mnemonic : String)
  /-- Raised by ENCODE for a digit outside 0..9 (spec/40_encode.md R114, U1). Safe. -/
  | digitOutOfRange
  /-- Raised by TRANSMIT presented while a frame is in progress (spec/41_transmit.md R137, U8). Safe. -/
  | busBusy
  /-- Raised by RENDER of a negative value (spec/43_render.md R182, U8). Safe. -/
  | negativeValue
  /-- Raised for a word that spells no operation (spec/30_encoding.md R93, U7). Safe. -/
  | reservedEncoding
  deriving DecidableEq, Repr

/-- The complete state (spec/10_state.md R20). -/
structure State where
  /-- The pattern ROM (R21). -/
  pattern : Vector Byte 10
  /-- The mask ROM (R26). -/
  mask : Vector Byte 4
  /-- Line `DATA` (R28). -/
  data : Bool
  /-- Line `CLOCK` (R28). -/
  clock : Bool
  /-- Line `LATCH` (R28). -/
  latch : Bool
  /-- `SEG`: the pattern byte of the TRANSMIT in progress (R30). -/
  seg : Byte
  /-- `SEL`: the mask byte of the TRANSMIT in progress (R30). -/
  sel : Byte
  /-- `PHASE` (R32). -/
  phase : Phase
  /-- The byte the last ENCODE returned, where its caller finds it (R110, R246; log 2). -/
  segOut : Byte
  /-- `TRACE`, oldest event first (R36). -/
  trace : List Event
  /-- The receiver's parameter `RX_EDGE`, a constant of the machine (R161; log 4). -/
  rxEdge : Edge
  /-- The receiver's shift stage `SR` (R37). -/
  sr : Frame
  /-- The receiver's output latch `Q` (R38). -/
  q : Frame
  /-- ClockState's `seconds` (R40). -/
  seconds : Nat
  /-- ClockState's `minutes` (R40). -/
  minutes : Nat
  /-- The host's parameter `SCALE`, a constant of the machine (R210; log 5). -/
  scale : ScaleArith
  /-- What the host main loop has still to do: its position and locals (R246; log 8). -/
  agenda : List HostOp
  /-- The model's own: what the outside world does at the coming step boundaries (R42; log 7). -/
  inputs : List Move
  /-- The model's own: how many boundaries have been drawn freely (log 7). -/
  draws : Nat
  deriving DecidableEq, Repr

/-- The machine right after reset (R41). The parameters have the spec's defaults (R6; logs 3, 4, 5); what the spec
leaves unknown is zero (log 1); no input is listed, so every move is drawn freely (log 7). -/
def State.reset : State :=
  { pattern := Config.defaultPattern, mask := Config.defaultMask
    data := false, clock := false, latch := false, seg := 0, sel := 0, phase := .idle, segOut := 0
    trace := [], rxEdge := .rising, sr := 0, q := 0, seconds := 0, minutes := 0, scale := .exact
    agenda := [.pollReset], inputs := [], draws := 0 }

end Sys2Proof.Machine
end

