-- ==== Sys2Proof/Machine/Flags.lean ====
section
/-! DEFINITION. The block has no status flags, condition codes or predicates (spec/10_state.md R34), so no flag is
computed anywhere. What this file holds is the one condition any transition tests: an edge on a line
(spec/00_scope.md R11), and the counting of edges in a list of events (spec/41_transmit.md R146). -/

namespace Sys2Proof.Machine

open Sys2Proof

/-- R11: a write of 1 when the line held 0. -/
def risingEdge (held written : Bool) : Bool := !held && written

/-- R11: a write of 0 when the line held 1. -/
def fallingEdge (held written : Bool) : Bool := held && !written

/-- spec/42_receiver_and_display.md R161: the active edge is the parameter `RX_EDGE`. -/
def activeEdge : Edge → Bool → Bool → Bool
  | .rising, held, written => risingEdge held written
  | .falling, held, written => fallingEdge held written

/-- How many edges of one kind a list of events makes on line `l` that held `held` before it (R146). -/
def countEdges (kind : Edge) (l : Line) : Bool → List Event → Nat
  | _, [] => 0
  | held, e :: es =>
    if e.line = l then
      (if activeEdge kind held e.level then 1 else 0) + countEdges kind l e.level es
    else countEdges kind l held es

end Sys2Proof.Machine
end

