-- ==== Sys2Proof/Syntax.lean ====
section
/-! DEFINITION. The eight encoded operations, one constructor per row of spec/opcode_table.json
(spec/30_encoding.md R91): the two block commands and the six line micro-operations. -/

namespace Sys2Proof

/-- The operations of the opcode table. -/
inductive Instr
  /-- `ENCODE digit, dp -> seg` (spec/40_encode.md R110). `digit` is a natural; the port holds 4 bits of it. -/
  | encode (digit : Nat) (dp : Bool)
  /-- `TRANSMIT segments, digitSelect` (spec/41_transmit.md R130). -/
  | transmit (segments digitSelect : Byte)
  /-- `DATA_LO` (R131). -/
  | dataLo
  /-- `DATA_HI` (R132). -/
  | dataHi
  /-- `CLK_LO` (R133). -/
  | clkLo
  /-- `CLK_HI` (R134). -/
  | clkHi
  /-- `LATCH_LO` (R135). -/
  | latchLo
  /-- `LATCH_HI` (R136). -/
  | latchHi
  deriving DecidableEq, Repr

end Sys2Proof
end

