-- ==== Sys2Proof/WellFormed.lean ====
section
/-! DEFINITION. Which instruction terms can be presented to the block: the digit must fit the 4-bit digit port
(spec/40_encode.md R110, spec/10_state.md R25). A digit 10..15 is well formed: it can be presented, and
ENCODE's result for it is undefined (R92). Every other operand's range is its type's. -/

namespace Sys2Proof

/-- The operands fit the fields of the instruction's encoding. -/
def Instr.wellFormed : Instr → Bool
  | .encode digit _ => digit < 16
  | .transmit _ _ => true
  | .dataLo => true
  | .dataHi => true
  | .clkLo => true
  | .clkHi => true
  | .latchLo => true
  | .latchHi => true

end Sys2Proof
end

