-- ==== Sys2Proof/Decode.lean ====
section
/-! DEFINITION. The decoder and the encoder of the three formats of spec/30_encoding.md: E and T (17-bit command
words, R86 to R88) and U (3-bit event codes, R89). Decoding is total and rejects by name (R93). -/

namespace Sys2Proof

/-- Why a word spells no operation. R93: the one reason, `refuse(reserved_encoding)`. -/
inductive Reject
  | reservedEncoding
  deriving DecidableEq, Repr

/-- A word in one of the two fixed widths of R95: a command word or an event code. -/
inductive Encoded
  | command (w : CommandWord)
  | event (c : EventCode)
  deriving DecidableEq, Repr

/-- R87, R88: bit 16 selects; a format-E word has bits 15..5 zero (mask 0x1FFE0), else it is reserved (R93). -/
def decodeCommand (w : CommandWord) : Except Reject Instr :=
  if w &&& 0x10000#17 = 0x10000#17 then
    .ok (.transmit (w.extractLsb' 8 8) (w.extractLsb' 0 8))
  else if w &&& 0x1FFE0#17 = 0#17 then
    .ok (.encode (w.extractLsb' 0 4).toNat (w.getLsbD 4))
  else .error .reservedEncoding

/-- R89: the six legal event codes; codes 6 and 7 are reserved (R93). -/
def decodeEvent (c : EventCode) : Except Reject Instr :=
  match c.toNat with
  | 0 => .ok .dataLo
  | 1 => .ok .dataHi
  | 2 => .ok .clkLo
  | 3 => .ok .clkHi
  | 4 => .ok .latchLo
  | 5 => .ok .latchHi
  | _ => .error .reservedEncoding

/-- The decoder: total on every word of either format. -/
def decode : Encoded → Except Reject Instr
  | .command w => decodeCommand w
  | .event c => decodeEvent c

/-- A format-E word: `000000000000pdddd` (R87). -/
def encodeE (digit : Nat) (dp : Bool) : CommandWord :=
  0#12 ++ BitVec.ofBool dp ++ BitVec.ofNat 4 digit

/-- A format-T word: `1ssssssssmmmmmmmm` (R88). -/
def encodeT (segments digitSelect : Byte) : CommandWord :=
  1#1 ++ segments ++ digitSelect

/-- The encoder: the word of an instruction (R87 to R89). -/
def encode : Instr → Encoded
  | .encode digit dp => .command (encodeE digit dp)
  | .transmit segments digitSelect => .command (encodeT segments digitSelect)
  | .dataLo => .event 0b000#3
  | .dataHi => .event 0b001#3
  | .clkLo => .event 0b010#3
  | .clkHi => .event 0b011#3
  | .latchLo => .event 0b100#3
  | .latchHi => .event 0b101#3

/-- The word the hardware reads from `nbits` bits numbered as the opcode table numbers them. A row of 3 bits
takes one whole byte, a row of 17 bits three; the bits above the format's width must be zero (log 22). -/
def tableWord (nbits w : Nat) : Option Encoded :=
  if nbits ≤ 8 then
    if w < 2 ^ 3 then some (.event (BitVec.ofNat 3 w)) else none
  else
    if w < 2 ^ 17 then some (.command (BitVec.ofNat 17 w)) else none

/-- What the decoder reads from a row's bits; `none` where it refuses. -/
def decodeTableWord (nbits w : Nat) : Option Instr :=
  match tableWord nbits w with
  | some e => (decode e).toOption
  | none => none

end Sys2Proof
end

