-- ==== Sys2Proof/Machine/Operands.lean ====
section
/-! DEFINITION. Operand assembly: the only three steps of spec/30_encoding.md R90 (the frame, the pattern byte, the
four digits of a value), the reads of the ROMs, the events of a frame, and the host's scaling of a sample. -/

namespace Sys2Proof.Machine

open Sys2Proof

/-! ### ROM reads -/

/-- `RomRead(T, i)` (spec/00_scope.md R10): one byte, defined only for `i` inside the table. -/
def romRead {n : Nat} (rom : Vector Byte n) (i : Nat) : Option Byte := rom[i]?

/-! ### The pattern byte -/

/-- spec/40_encode.md R112: clear the decimal-point bit by AND when `dp` is 1, without a conditional. -/
def gateDp (entry : Byte) (dp : Bool) : Byte :=
  entry &&& ~~~((BitVec.ofBool dp).zeroExtend 8 <<< Config.dpBit)

/-- R110: the byte ENCODE returns; none for a digit outside 0..9 (R114). -/
def encodeByte (pattern : Vector Byte 10) (digit : Nat) (dp : Bool) : Option Byte :=
  (romRead pattern digit).map fun entry => gateDp entry dp

/-! ### The frame and its events -/

/-- `FRAME = SEG ++ SEL` (spec/10_state.md R31, spec/30_encoding.md R84). -/
def frameOf (segments digitSelect : Byte) : Frame := segments ++ digitSelect

/-- The frame in progress (R31). -/
def State.frame (s : State) : Frame := frameOf s.seg s.sel

/-- The event that `PHASE = n` selects, `n` in 0..49 (R33, spec/41_transmit.md R139): latch low; for each `k` in
0..15 the bit `FRAME[15 - k]`, clock high, clock low; latch high. -/
def frameEvent (frame : Frame) (n : Nat) : Event :=
  if n = 0 then ⟨.latch, false⟩
  else if n = 49 then ⟨.latch, true⟩
  else match (n - 1) % 3 with
    | 0 => ⟨.data, frame.getLsbD (15 - (n - 1) / 3)⟩
    | 1 => ⟨.clock, true⟩
    | _ => ⟨.clock, false⟩

/-- R89: the two bits that name a line. -/
def Line.code : Line → BitVec 2
  | .data => 0b00#2
  | .clock => 0b01#2
  | .latch => 0b10#2

/-- R89: an event as the three bits `L1 L0 V`. -/
def Event.code (e : Event) : EventCode := e.line.code ++ BitVec.ofBool e.level

/-! ### The digits of a value -/

/-- `DIGITS`, one digit (spec/43_render.md R181): position 0 shows thousands, position 3 units. -/
def digitAt (value : Nat) (i : Fin 4) : Nat :=
  match i with
  | 0 => value / 1000 % 10
  | 1 => value / 100 % 10
  | 2 => value / 10 % 10
  | 3 => value % 10

/-- R183, R187: the point is shown at position `i` when `show` holds and `i == pos`. -/
def pointAt (showPoint : Bool) (pos : Int) (i : Fin 4) : Bool :=
  showPoint && decide ((i.val : Int) = pos)

/-! ### The analog sample -/

/-- A raw 16-bit count as a fraction of full scale (spec/44_host_clock_and_arbiter.md R222, R210; D27). -/
def sampleOfCount (d : AdcDiv) (count : BitVec 16) : Sample :=
  match d with
  | .by65535 => ⟨65534, ⟨count.toNat, count.isLt⟩⟩
  | .by65536 => ⟨65535, ⟨count.toNat, Nat.lt_succ_of_lt count.isLt⟩⟩

/-- `num / den` rounded to `p` significant bits, to nearest and ties to even, as a fraction; general knowledge of
IEEE 754 with an unbounded exponent (G6; log 5). The shift leaves at least `p + 1` bits in the quotient. -/
def roundNearestEven (p : Nat) (x : Nat × Nat) : Nat × Nat :=
  if x.1 = 0 then (0, 1)
  else
    let shift := p + 2 + x.2.log2
    let scaled := x.1 <<< shift
    let drop := (scaled / x.2).log2 + 1 - p
    let unit := x.2 <<< drop
    let kept := scaled / unit
    let twice := 2 * (scaled % unit)
    let up := twice > unit || (twice = unit && kept % 2 = 1)
    ((if up then kept + 1 else kept) <<< drop, 1 <<< shift)

/-- The product of two fractions. -/
def mulFrac (x y : Nat × Nat) : Nat × Nat := (x.1 * y.1, x.2 * y.2)

/-- `truncate(sample * 3.3 * 1000)` with the product rounded to `p` bits and the second product to `q` bits. The spec
does not say in what format 3.3 stands nor what becomes of a sample that the format does not hold: here both are
rounded to `p` bits before the first product, so in the mixed order 3.3 is the binary32 value (PRESUMED, log 5). -/
def scaleFloat (p q : Nat) (x : Sample) : Nat :=
  let sample := roundNearestEven p (x.num.val, x.den)
  let fullScale := roundNearestEven p (33, 10)
  let volts := roundNearestEven p (mulFrac sample fullScale)
  let millivolts := roundNearestEven q (mulFrac volts (1000, 1))
  millivolts.1 / millivolts.2

/-- `SCALE(sample)` (R210): exact rational arithmetic and truncation by default; `3.3 * 1000 = 3300`. -/
def scaleSample : ScaleArith → Sample → Nat
  | .exact, x => x.num.val * 3300 / x.den
  | .binary64, x => scaleFloat 53 53 x
  | .binary32, x => scaleFloat 24 24 x
  | .mixed, x => scaleFloat 24 53 x
  | .unstated, x => (Config.scaleUnstated x).val

end Sys2Proof.Machine
end

