-- ==== Sys2Proof/Machine/Ops.lean ====
section
/-! DEFINITION. The named operations over the state: writing a line with the receiver's reaction, the sequencer index,
the operand registers, ClockState, taking the tick (the system's one interrupt) and returning from it, power-on, and the host's
agenda and inputs. -/

namespace Sys2Proof.Machine

open Sys2Proof

/-! ### The lines and the receiver -/

/-- The level a line holds (spec/10_state.md R28). -/
def State.level (s : State) : Line → Bool
  | .data => s.data
  | .clock => s.clock
  | .latch => s.latch

/-- `SR` after a write of `v` to line `l` (spec/42_receiver_and_display.md R161): on the active edge of `CLOCK`,
`SR[14:0] ++ DATA`; else unchanged. The level of `LATCH` does not gate it. -/
def State.srAfter (s : State) (l : Line) (v : Bool) : Frame :=
  if l = .clock ∧ activeEdge s.rxEdge s.clock v = true then s.sr.extractLsb' 0 15 ++ BitVec.ofBool s.data
  else s.sr

/-- `Q` after a write of `v` to line `l` (R163): on a rising edge of `LATCH` all of `SR`; else unchanged. -/
def State.qAfter (s : State) (l : Line) (v : Bool) : Frame :=
  if l = .latch ∧ risingEdge s.latch v = true then s.sr else s.q

/-- `emit(L, v)` (spec/00_scope.md R10): write the line, append the event; the receiver reacts as part of the write
(R160, spec/20_memory.md R62). A write of the level already held is an event and no edge (R11, D17). -/
def State.emit (s : State) (l : Line) (v : Bool) : State :=
  { s with
    data := if l = .data then v else s.data
    clock := if l = .clock then v else s.clock
    latch := if l = .latch then v else s.latch
    trace := s.trace ++ [⟨l, v⟩]
    sr := s.srAfter l v
    q := s.qAfter l v }

/-- A list of events emitted in order. -/
def State.emitAll (s : State) (es : List Event) : State :=
  es.foldl (fun t e => t.emit e.line e.level) s

/-! ### The sequencer -/

/-- The index after index `n` (spec/41_transmit.md R140): `n + 1`, and `IDLE` after 49. -/
def Phase.after (n : Fin 50) : Phase :=
  if h : n.val + 1 < 50 then .event ⟨n.val + 1, h⟩ else .idle

/-- R32, R140: what a micro-operation does to `PHASE`. At `IDLE` there is nothing to advance. -/
def Phase.advanced : Phase → Phase
  | .idle => .idle
  | .event n => Phase.after n

/-- Advance the sequencer. -/
def State.advance (s : State) : State := { s with phase := s.phase.advanced }

/-- Acceptance of a TRANSMIT (R138): the operands into `SEG` and `SEL`, `PHASE <- 0`, no event. -/
def State.accept (s : State) (segments digitSelect : Byte) : State :=
  { s with seg := segments, sel := digitSelect, phase := .event 0 }

/-- The byte ENCODE returns, given to its caller (R110; log 2). -/
def State.setSegOut (s : State) (b : Byte) : State := { s with segOut := b }

/-- One line micro-operation: its event, then the sequencer advances (R131 to R136, R32, R140; log 10). -/
def microOp (l : Line) (v : Bool) (s : State) : Host.Outcome State Fault Refusal :=
  .next (s.emit l v).advance

/-! ### ClockState and the tick interrupt -/

/-- `TICK` (spec/44_host_clock_and_arbiter.md R201). -/
def State.tick (s : State) : State :=
  { s with
    seconds := if s.seconds + 1 = 60 then 0 else s.seconds + 1
    minutes := if s.seconds + 1 = 60 then (if s.minutes + 1 = 100 then 0 else s.minutes + 1) else s.minutes }

/-- Taking the one interrupt of the system (spec/60_exceptions.md R246): the main loop is suspended at a step
boundary, one whole TICK is performed, and nothing else changes: no register is saved, no mode or mask
changes, the main loop's position and locals (`agenda`), `SEG`, `SEL`, `PHASE` and the lines stay. -/
def State.takeTick (s : State) : State := s.tick

/-- Returning from it (R247): there is nothing to restore; the main loop resumes at the step it was about to take. -/
def State.returnFromTick (s : State) : State := s

/-- The write `seconds <- 0` of CLKRESET (R202). -/
def State.clearSeconds (s : State) : State := { s with seconds := 0 }

/-- The write `minutes <- 0` of CLKRESET (R202). -/
def State.clearMinutes (s : State) : State := { s with minutes := 0 }

/-! ### Power-on -/

/-- Unknown state taken as zero: the value this model names (DESIGN CHOICE, log 1). -/
def PowerOn.zero : PowerOn :=
  { data := false, clock := false, latch := false, seg := 0, sel := 0, segOut := 0, sr := 0, q := 0 }

/-- The state after power-on (R41, R270, R271): ROMs and parameters as the machine has them, what is unknown as
`p` draws it, `PHASE = IDLE`, `TRACE` empty, ClockState (0, 0), the host at the start of its main loop. -/
def State.powerOn (s : State) (p : PowerOn) : State :=
  { s with
    data := p.data, clock := p.clock, latch := p.latch, seg := p.seg, sel := p.sel, segOut := p.segOut
    phase := .idle, trace := [], sr := p.sr, q := p.q, seconds := 0, minutes := 0, agenda := [.pollReset] }

/-! ### The host's agenda and the inputs -/

/-- What the main loop does next is put before what it already had to do. -/
def State.push (s : State) (ops : List HostOp) : State := { s with agenda := ops ++ s.agenda }

/-- The main loop moves past the operation it is about to perform. -/
def State.popAgenda (s : State) : State := { s with agenda := s.agenda.tail }

/-- The move at the `n`-th boundary for which nothing is listed: a tick or not, free levels, a free sample and a
free order (R42, R244, D28; log 7). Never a strobe (D29) and never a power cycle. -/
def freeMove (n : Nat) : Move :=
  if Config.freeTick n then .tick
  else .go
    { resetLevel := Config.freeResetLevel n, modeLevel := Config.freeModeLevel n
      spareLevel := Config.freeSpareLevel n
      sample := sampleOfCount Config.adcDiv (Config.freeAdcCount n)
      minutesFirst := Config.freeMinutesFirst n }

/-- Who moves at the coming boundary. -/
def State.nextMove (s : State) : Move :=
  match s.inputs with
  | m :: _ => m
  | [] => freeMove s.draws

/-- The move is taken from the inputs, or counted as drawn. -/
def State.takeMove (s : State) : State :=
  { s with
    inputs := s.inputs.tail
    draws := if s.inputs.isEmpty then s.draws + 1 else s.draws }

/-- R221: a button is asserted when its input reads 0. -/
def Pins.resetAsserted (p : Pins) : Bool := !p.resetLevel

/-- R221, as `resetAsserted`. -/
def Pins.modeAsserted (p : Pins) : Bool := !p.modeLevel

/-- Nothing asserted, sample 0: the inputs a listed move may carry when no host step looks at them. -/
def Pins.quiet : Pins :=
  { resetLevel := true, modeLevel := true, spareLevel := true, sample := ⟨0, 0⟩, minutesFirst := true }

end Sys2Proof.Machine
end

