-- ==== Sys2Proof/Machine/Encoder.lean ====
section
/-! DEFINITION. The SegmentEncoder's one operation (spec/40_encode.md). -/

namespace Sys2Proof.Machine

open Sys2Proof

/-- `ENCODE digit, dp -> seg` (R110): the ROM entry gated by `dp` goes to the caller; nothing else changes (R113). A
digit outside 0..9 has no result: `undefined(digit_out_of_range)`, a refusal (R114, U1; log 11). -/
def execEncode (digit : Nat) (dp : Bool) (s : State) : Host.Outcome State Fault Refusal :=
  match encodeByte s.pattern digit dp with
  | some b => .next (s.setSegOut b)
  | none => .refused .digitOutOfRange

end Sys2Proof.Machine
end

