-- ==== Sys2Proof/Machine/Serializer.lean ====
section
/-! DEFINITION. The ShiftRegisterBus: TRANSMIT's acceptance and the six line micro-operations
(spec/41_transmit.md). -/

namespace Sys2Proof.Machine

open Sys2Proof

/-- `TRANSMIT segments, digitSelect` (R137, R138): accepted only when `PHASE = IDLE`, else `refuse(bus_busy)`. The
50 events follow, one serializer step each (R139). -/
def execTransmit (segments digitSelect : Byte) (s : State) : Host.Outcome State Fault Refusal :=
  match s.phase with
  | .idle => .next (s.accept segments digitSelect)
  | .event _ => .refused .busBusy

/-- `DATA_LO` (R131): `emit(DATA, 0)`. -/
def execDataLo (s : State) : Host.Outcome State Fault Refusal := microOp .data false s

/-- `DATA_HI` (R132): `emit(DATA, 1)`. -/
def execDataHi (s : State) : Host.Outcome State Fault Refusal := microOp .data true s

/-- `CLK_LO` (R133): `emit(CLOCK, 0)`. -/
def execClkLo (s : State) : Host.Outcome State Fault Refusal := microOp .clock false s

/-- `CLK_HI` (R134): `emit(CLOCK, 1)`. -/
def execClkHi (s : State) : Host.Outcome State Fault Refusal := microOp .clock true s

/-- `LATCH_LO` (R135): `emit(LATCH, 0)`. -/
def execLatchLo (s : State) : Host.Outcome State Fault Refusal := microOp .latch false s

/-- `LATCH_HI` (R136): `emit(LATCH, 1)`. -/
def execLatchHi (s : State) : Host.Outcome State Fault Refusal := microOp .latch true s

end Sys2Proof.Machine
end

