-- ==== Sys2Proof/Machine/Dispatch.lean ====
section
/-! DEFINITION. The meaning of an instruction: one arm per row of the opcode table. -/

namespace Sys2Proof.Machine

open Sys2Proof

def exec (i : Instr) (s : State) : Host.Outcome State Fault Refusal :=
  match i with
  | .encode digit dp => Sys2Proof.Machine.execEncode digit dp s
  | .transmit segments digitSelect => Sys2Proof.Machine.execTransmit segments digitSelect s
  | .dataLo => Sys2Proof.Machine.execDataLo s
  | .dataHi => Sys2Proof.Machine.execDataHi s
  | .clkLo => Sys2Proof.Machine.execClkLo s
  | .clkHi => Sys2Proof.Machine.execClkHi s
  | .latchLo => Sys2Proof.Machine.execLatchLo s
  | .latchHi => Sys2Proof.Machine.execLatchHi s

end Sys2Proof.Machine
end

