-- ==== Sys2Proof/Machine/Fetch.lean ====
section
/-! DEFINITION. What stands for instruction fetch (spec/10_state.md R32: "The hardware has no program counter, no
instruction memory and fetches nothing"): a command word presented to the block is decoded and performed; a
frame in progress issues the micro-operation that `PHASE` selects. And where `withFetchWord` puts a word. -/

namespace Sys2Proof.Machine

open Sys2Proof

/-- A word is decoded and its operation performed; a word that spells none is refused by name (R93). -/
def perform (e : Encoded) (s : State) : Host.Outcome State Fault Refusal :=
  match decode e with
  | .ok i => exec i s
  | .error .reservedEncoding => .refused .reservedEncoding

/-- The serializer's step at `PHASE = n` (spec/41_transmit.md R139): the micro-operation whose event `n` selects. -/
def serializerStep (n : Fin 50) (s : State) : Host.Outcome State Fault Refusal :=
  perform (.event (frameEvent s.frame n.val).code) s

/-- A command word that spells no operation (W4): it stands for bits that are no word of either format. -/
def reservedCommand : CommandWord := 0x00020#17

/-- The coming move presents a command word on the command strobe (log 9). -/
def State.withCommand (s : State) (w : CommandWord) : State :=
  { s with inputs := .strobe w :: s.inputs }

/-- The coming move is the serializer's, at index `n` of a frame whose `SEG` is `seg` (log 9). -/
def State.withMicroOp (s : State) (n : Fin 50) (seg : Byte) : State :=
  { s with phase := .event n, seg := seg, inputs := .go Pins.quiet :: s.inputs }

/-- The coming move performs the event code `c`: the sequencer stands at an index that issues it, and for a data
write bit 7 of `SEG` is the level. Codes 6 and 7 are issued at no index (R93). -/
def State.withEventCode (s : State) (c : EventCode) : State :=
  match c.toNat with
  | 0 => s.withMicroOp 1 (s.seg &&& 0x7F#8)
  | 1 => s.withMicroOp 1 (s.seg ||| 0x80#8)
  | 2 => s.withMicroOp 3 s.seg
  | 3 => s.withMicroOp 2 s.seg
  | 4 => s.withMicroOp 0 s.seg
  | 5 => s.withMicroOp 49 s.seg
  | _ => s.withCommand reservedCommand

/-- The word of a row's bits is placed where the coming step takes its operation from. -/
def State.placeWord (s : State) (nbits w : Nat) : State :=
  match tableWord nbits w with
  | some (.command c) => s.withCommand c
  | some (.event c) => s.withEventCode c
  | none => s.withCommand reservedCommand

end Sys2Proof.Machine
end

