-- ==== Sys2Proof/Machine/HostLoop.lean ====
section
/-! DEFINITION. The host: DisplayMultiplexer's RENDER with its pseudo-operations (spec/43_render.md), the main loop of
ModeArbiter and the main loop's accesses to ClockState (spec/44_host_clock_and_arbiter.md). One definition per
host operation; each is one step of the main loop, and the state it gets is already past it on the agenda. -/

namespace Sys2Proof.Machine

open Sys2Proof

/-- R207, R208: poll the reset button first. Asserted: CLKRESET, WAIT 200; then, either way, the mode test. -/
def hostPollReset (pins : Pins) (s : State) : Host.Outcome State Fault Refusal :=
  .next (s.push (if pins.resetAsserted then [.clkReset, .wait 200, .pollMode] else [.pollMode]))

/-- R207, R209, R211: exactly one of the voltage and the time branch, then the next iteration. -/
def hostPollMode (pins : Pins) (s : State) : Host.Outcome State Fault Refusal :=
  .next (s.push [if pins.modeAsserted then .sampleAnalog else .readTime, .pollReset])

/-- R202, R206: the first of CLKRESET's two writes; the other one is a step of its own. -/
def hostClkReset (pins : Pins) (s : State) : Host.Outcome State Fault Refusal :=
  .next (if pins.minutesFirst then s.clearMinutes.push [.clearSeconds] else s.clearSeconds.push [.clearMinutes])

/-- The second write of CLKRESET, of `seconds`. -/
def hostClearSeconds (s : State) : Host.Outcome State Fault Refusal := .next s.clearSeconds

/-- The second write of CLKRESET, of `minutes`. -/
def hostClearMinutes (s : State) : Host.Outcome State Fault Refusal := .next s.clearMinutes

/-- R209: `RENDER SCALE(sample), 1, 0`. -/
def hostSampleAnalog (pins : Pins) (s : State) : Host.Outcome State Fault Refusal :=
  .next (s.push [.render (scaleSample s.scale pins.sample) true 0])

/-- R211, R206: the first of the two reads of ClockState; the other one is a step of its own. -/
def hostReadTime (pins : Pins) (s : State) : Host.Outcome State Fault Refusal :=
  .next (s.push [if pins.minutesFirst then .readSeconds s.minutes else .readMinutes s.seconds])

/-- R211: `timeValue = minutes * 100 + seconds`, and `RENDER timeValue, 1, 1`. -/
def renderTime (minutes seconds : Nat) : HostOp := .render (minutes * 100 + seconds : Nat) true 1

/-- R206: the second read is of `seconds`. -/
def hostReadSeconds (minutesRead : Nat) (s : State) : Host.Outcome State Fault Refusal :=
  .next (s.push [renderTime minutesRead s.seconds])

/-- R206: the second read is of `minutes`. -/
def hostReadMinutes (secondsRead : Nat) (s : State) : Host.Outcome State Fault Refusal :=
  .next (s.push [renderTime s.minutes secondsRead])

/-- The four SHOWDIGITs a RENDER expands to (spec/30_encoding.md R97, R184), positions 0 to 3 in order. -/
def showDigits (value : Nat) (showPoint : Bool) (pos : Int) : List HostOp :=
  (List.finRange 4).map fun i => .showDigit i (digitAt value i) (pointAt showPoint pos i)

/-- `RENDER value, show, pos` (R180, R184): DIGITS once and then the four SHOWDIGITs; a negative value is
`refuse(negative_value)` (R182; log 12). No bound above: 10000 and more truncate (R186). -/
def hostRender (value : Int) (showPoint : Bool) (pos : Int) (s : State) : Host.Outcome State Fault Refusal :=
  match value with
  | .ofNat v => .next (s.push (showDigits v showPoint pos))
  | .negSucc _ => .refused .negativeValue

/-- `SHOWDIGIT i, digit, dp` (R183): this step is its ENCODE; then `TRANSMIT s, MASK[i]` and `WAIT 2` follow. The ENCODE
is performed as the instruction and not as a 4-bit word, so every digit outside 0..9 is refused as ENCODE's is (R114,
spec/30_encoding.md R96; log 11). -/
def hostShowDigit (i : Fin 4) (digit : Nat) (dp : Bool) (s : State) : Host.Outcome State Fault Refusal :=
  match exec (.encode digit dp) s with
  | .next t => .next (t.push [.command (encodeT t.segOut t.mask[i]), .wait 2])
  | .fault r => .fault r
  | .refused r => .refused r

/-- `WAIT ms` (R185): a step with no effect (log 24). -/
def hostWait (_ms : Nat) (s : State) : Host.Outcome State Fault Refusal := .next s

/-- A command word is presented to the block (R86). A TRANSMIT's frame runs before the main loop's next step. -/
def hostCommand (w : CommandWord) (s : State) : Host.Outcome State Fault Refusal := perform (.command w) s

/-- One host operation. -/
def hostOp (op : HostOp) (pins : Pins) (s : State) : Host.Outcome State Fault Refusal :=
  match op with
  | .pollReset => hostPollReset pins s
  | .pollMode => hostPollMode pins s
  | .clkReset => hostClkReset pins s
  | .clearSeconds => hostClearSeconds s
  | .clearMinutes => hostClearMinutes s
  | .sampleAnalog => hostSampleAnalog pins s
  | .readTime => hostReadTime pins s
  | .readSeconds m => hostReadSeconds m s
  | .readMinutes sec => hostReadMinutes sec s
  | .render value showPoint pos => hostRender value showPoint pos s
  | .showDigit i digit dp => hostShowDigit i digit dp s
  | .wait ms => hostWait ms s
  | .command w => hostCommand w s

/-- One step of the main loop. With nothing left to do (the end of a command list, R287) the block stays idle for
ever if no command comes (R141; log 15). -/
def hostStep (pins : Pins) (s : State) : Host.Outcome State Fault Refusal :=
  match s.agenda with
  | [] => .next s
  | op :: _ => hostOp op pins s.popAgenda

/-- What a move does. The tick wins over the main loop and the serializer (spec/60_exceptions.md R245); a frame in
progress runs before the main loop takes a step of its own (spec/41_transmit.md R150). -/
def stepMove (m : Move) (s : State) : Host.Outcome State Fault Refusal :=
  match m with
  | .tick => .next s.takeTick.returnFromTick
  | .strobe w => perform (.command w) s
  | .powerCycle p => .next (s.powerOn p)
  | .go pins =>
    match s.phase with
    | .event n => serializerStep n s
    | .idle => hostStep pins s

end Sys2Proof.Machine
end

