-- ==== Sys2Proof/Machine/Step.lean ====
section
/-! DEFINITION. One step of the system: the coming move is taken from the inputs and performed
(spec/00_scope.md R7, R8). -/

namespace Sys2Proof.Machine

open Sys2Proof

/-- One step: the move at the coming boundary (log 7). -/
def step (s : State) : Host.Outcome State Fault Refusal := stepMove s.nextMove s.takeMove

/-- `s` with a row's bits where the coming step takes its operation from (log 9). -/
def State.withFetchWord (s : State) (nbits w : Nat) : State := s.placeWord nbits w

end Sys2Proof.Machine
end

