-- ==== Sys2Proof/Machine/WholeOps.lean ====
section
/-! DEFINITION. The level of whole operations: what the pseudocode of TRANSMIT (spec/41_transmit.md R130) emits, and the
frames and events of a whole RENDER (spec/43_render.md R184, R189). The step function does not use these; R142
says that the two levels agree. -/

namespace Sys2Proof.Machine

open Sys2Proof

/-- One pass of the loop of R130: the bit, then the clock pulse. -/
def bitEvents (frame : Frame) (k : Nat) : List Event :=
  [⟨.data, frame.getLsbD (15 - k)⟩, ⟨.clock, true⟩, ⟨.clock, false⟩]

/-- All events of one TRANSMIT, in order (R130, spec/30_encoding.md R85). -/
def frameEvents (frame : Frame) : List Event :=
  ⟨.latch, false⟩ :: ((List.range 16).flatMap (bitEvents frame) ++ [⟨.latch, true⟩])

/-- TRANSMIT as one operation (R130): its events, the operands in `SEG` and `SEL`, the block idle again. -/
def State.transmitWhole (s : State) (segments digitSelect : Byte) : State :=
  { s.emitAll (frameEvents (frameOf segments digitSelect)) with
    seg := segments, sel := digitSelect, phase := .idle }

/-- The frame of position `i` in a RENDER (R183): the digit's pattern byte with the mask of the position. -/
def renderFrame (pattern : Vector Byte 10) (mask : Vector Byte 4) (value : Nat) (showPoint : Bool) (pos : Int)
    (i : Fin 4) : Option Frame :=
  (encodeByte pattern (digitAt value i) (pointAt showPoint pos i)).map fun b => frameOf b mask[i]

/-- The frames of a RENDER, in the order of emission (R184). -/
def renderFrames (pattern : Vector Byte 10) (mask : Vector Byte 4) (value : Nat) (showPoint : Bool) (pos : Int) :
    List Frame :=
  (List.finRange 4).filterMap (renderFrame pattern mask value showPoint pos)

/-- The events of a RENDER (R189). -/
def renderEvents (pattern : Vector Byte 10) (mask : Vector Byte 4) (value : Nat) (showPoint : Bool) (pos : Int) :
    List Event :=
  (renderFrames pattern mask value showPoint pos).flatMap frameEvents

/-- The values `Q` takes at the commits a list of events makes (spec/42_receiver_and_display.md R163, R168). -/
def commitsOf : State → List Event → List Frame
  | _, [] => []
  | s, e :: es =>
    if e.line = .latch ∧ risingEdge s.latch e.level = true then
      (s.emit e.line e.level).q :: commitsOf (s.emit e.line e.level) es
    else commitsOf (s.emit e.line e.level) es

end Sys2Proof.Machine
end

