-- ==== Sys2Proof/Machine/Display.lean ====
section
/-! DEFINITION. From `Q` to what the display is commanded to show (spec/42_receiver_and_display.md R165, R166, R168).
A reading of the receiver's outputs, not a property of the block: the segment layout, the wiring and the
decimal point on bit 7 are assumptions (D5, D16, U2; log 19). -/

namespace Sys2Proof.Machine

open Sys2Proof

/-- The seven segments with their bits (spec/30_encoding.md R80) [from general knowledge, not in source]. -/
inductive Segment
  | a
  | b
  | c
  | d
  | e
  | f
  | g
  deriving DecidableEq, Repr

/-- R80: the bit of a pattern byte that drives a segment. -/
def Segment.bit : Segment → Nat
  | .a => 0
  | .b => 1
  | .c => 2
  | .d => 3
  | .e => 4
  | .f => 5
  | .g => 6

/-- R165: `Q[15:8]`. -/
def patternByte (q : Frame) : Byte := q.extractLsb' 8 8

/-- R165: `Q[7:0]`. -/
def maskByte (q : Frame) : Byte := q.extractLsb' 0 8

/-- R165: position `p` is enabled exactly when `Q[7:0] & MASK[p]` is not zero. -/
def positionEnabled (mask : Vector Byte 4) (q : Frame) (p : Fin 4) : Bool := maskByte q &&& mask[p] != 0#8

/-- R165: on an enabled position a segment is lit exactly when its bit is 0. -/
def segmentLit (mask : Vector Byte 4) (q : Frame) (p : Fin 4) (x : Segment) : Bool :=
  positionEnabled mask q p && !(patternByte q).getLsbD x.bit

/-- R165: on an enabled position the decimal point is lit exactly when `Q[15] = 0`. -/
def pointLit (mask : Vector Byte 4) (q : Frame) (p : Fin 4) : Bool :=
  positionEnabled mask q p && !(patternByte q).getLsbD Config.dpBit

/-- R166: the digit whose entry is `Q[15:8] | 0x80`, undefined (none) if there is none; the least one if a table has
two equal entries (log 25). -/
def shownDigit (pattern : Vector Byte 10) (q : Frame) : Option (Fin 10) :=
  (List.finRange 10).find? fun d => pattern[d] == patternByte q ||| 0x80#8

/-- R166: `Q[15] = 0`. -/
def shownPoint (q : Frame) : Bool := !q.getLsbD 15

/-- R166: the enabled positions. -/
def shownPositions (mask : Vector Byte 4) (q : Frame) : List (Fin 4) :=
  (List.finRange 4).filter (positionEnabled mask q)

/-- What one position is perceived to show. -/
structure Perceived where
  digit : Fin 10
  point : Bool
  deriving DecidableEq, Repr

/-- R168: position `i` as read off its commit, provided exactly position `i` is shown. The rule's proviso `for each i` is
tested here at each position by itself and not jointly over the four commits (DESIGN CHOICE, log 27). -/
def perceivedAt (pattern : Vector Byte 10) (mask : Vector Byte 4) (q : Frame) (i : Fin 4) : Option Perceived :=
  if shownPositions mask q = [i] then (shownDigit pattern q).map fun d => ⟨d, shownPoint q⟩ else none

/-- R168: the perceived readout of four consecutive commits. -/
def perceivedReadout (pattern : Vector Byte 10) (mask : Vector Byte 4) (commits : Vector Frame 4) :
    List (Option Perceived) :=
  (List.finRange 4).map fun i => perceivedAt pattern mask commits[i] i

end Sys2Proof.Machine
end

