-- ==== Sys2Proof/Safety.lean ====
section
/-! DEFINITION. What counts as a good state and a safe run, in the terms the statements use. -/

namespace Sys2Proof.Machine

open Sys2Proof

/-- spec/10_state.md R24, R27: bit 7 of every pattern is 1; every mask has exactly one bit set; no two overlap. -/
abbrev State.RomWf (s : State) : Prop :=
  (∀ d : Fin 10, s.pattern[d].getLsbD 7 = true) ∧
  (∀ p : Fin 4, ∃ k : Fin 8, s.mask[p] = 1#8 <<< k.val) ∧
  (∀ p r : Fin 4, p ≠ r → s.mask[p] &&& s.mask[r] = 0#8)

/-- spec/44_host_clock_and_arbiter.md R200, R204: `0 <= seconds <= 59` and `0 <= minutes <= 99`. -/
abbrev State.ClockWf (s : State) : Prop := s.seconds ≤ 59 ∧ s.minutes ≤ 99

/-- What the lines hold at each point of a frame (spec/41_transmit.md R139, R146, R147): latched low from index 1
on; between frames, once an event has been emitted, `CLOCK = 0` and `LATCH = 1`; inside a frame `CLOCK` is high
exactly between its two writes and `DATA` holds the bit of that pulse. Nothing is said of the levels before
the first frame. -/
def State.FrameWf (s : State) : Prop :=
  match s.phase with
  | .idle => s.trace ≠ [] → s.clock = false ∧ s.latch = true
  | .event n =>
    (n.val = 0 → s.trace ≠ [] → s.clock = false ∧ s.latch = true) ∧
    (1 ≤ n.val → s.latch = false) ∧
    (3 ≤ n.val → n.val % 3 = 0 → s.clock = true) ∧
    (4 ≤ n.val → n.val % 3 ≠ 0 → s.clock = false) ∧
    (n.val % 3 = 2 → s.data = s.frame.getLsbD (15 - (n.val - 2) / 3)) ∧
    (3 ≤ n.val → n.val % 3 = 0 → s.data = s.frame.getLsbD (15 - (n.val - 3) / 3))

/-- The invariant of the system. -/
def State.Inv (s : State) : Prop := s.RomWf ∧ s.ClockWf ∧ s.FrameWf

/-- A command word that spells an operation whose result the spec gives (R87, R88, R114). -/
def commandOk (w : CommandWord) : Bool :=
  match decodeCommand w with
  | .ok (.encode digit _) => digit ≤ 9
  | .ok _ => true
  | .error _ => false

/-- The caller's duties (spec/70_reset_and_hazards.md R283): digits in 0..9, values not negative, words that spell an
operation; and the range of what the main loop has read of ClockState (R206). -/
def HostOp.ok : HostOp → Bool
  | .showDigit _ digit _ => digit ≤ 9
  | .command w => commandOk w
  | .render value _ _ => 0 ≤ value
  | .readSeconds m => m ≤ 99
  | .readMinutes sec => sec ≤ 59
  | .pollReset => true
  | .pollMode => true
  | .clkReset => true
  | .clearSeconds => true
  | .clearMinutes => true
  | .sampleAnalog => true
  | .readTime => true
  | .wait _ => true

/-- Everything the main loop has still to do respects them. -/
abbrev State.AgendaOk (s : State) : Prop := ∀ op ∈ s.agenda, op.ok = true

/-- A move that is no strobe. -/
def Move.notStrobe : Move → Bool
  | .strobe _ => false
  | .tick => true
  | .powerCycle _ => true
  | .go _ => true

/-- A move that is no power cycle. -/
def Move.notPowerCycle : Move → Bool
  | .powerCycle _ => false
  | .tick => true
  | .strobe _ => true
  | .go _ => true

/-- The bus has one master, the main loop (spec/70_reset_and_hazards.md R278, D29): no listed move is a strobe. -/
abbrev State.OneMaster (s : State) : Prop := ∀ m ∈ s.inputs, m.notStrobe = true

/-- `k` steps of the machine, stopping at the first refusal: the host's `Core.run` on this machine
(`runSteps_eq_run`). -/
def runSteps : Nat → State → Host.Outcome State Fault Refusal
  | 0, s => .next s
  | k + 1, s =>
    match step s with
    | .next t => runSteps k t
    | .fault r => .fault r
    | .refused r => .refused r

/-- A step of an agent of the system's own: the serializer's or the main loop's. -/
def Move.isGo : Move → Bool
  | .go _ => true
  | .tick => false
  | .strobe _ => false
  | .powerCycle _ => false

/-- A delivery of the tick. -/
def Move.isTick : Move → Bool
  | .tick => true
  | .go _ => false
  | .strobe _ => false
  | .powerCycle _ => false

/-- The coming step presents the command word `w` to the block: on the strobe, or as the main loop's next operation. -/
def State.presents (s : State) (w : CommandWord) : Prop :=
  s.nextMove = .strobe w ∨ (s.nextMove.isGo = true ∧ ∃ rest, s.agenda = .command w :: rest)

/-- The coming moves present one TRANSMIT and then let the serializer step fifty times (spec/41_transmit.md R142);
`rest` follows. -/
def State.presentTransmit (s : State) (segments digitSelect : Byte) (pins : Pins) (rest : List Move) : State :=
  { s with inputs := .strobe (encodeT segments digitSelect) :: (List.replicate 50 (.go pins) ++ rest) }

/-- The pattern table tells its ten digits apart, as the default does (spec/40_encode.md R116). -/
abbrev State.PatternInjective (s : State) : Prop := ∀ d e : Fin 10, s.pattern[d] = s.pattern[e] → d = e

/-- `k` completed TICKs (R201). -/
def State.ticks : Nat → State → State
  | 0, s => s
  | k + 1, s => State.ticks k s.tick

end Sys2Proof.Machine
end

