-- ==== Sys2Proof/Certificates/Slice0/Obligations.lean ====
section
/-! DEFINITION. The statements for the provers. A docstring names the rule, section, decision (D) or log entry the
statement formalises. Where a rule is marked in the spec as its own decision or derivation, the statement's basis
is 'derived'. -/

open Sys2Proof Sys2Proof.Machine

/-! ### Encoding -/

/-- The words of spec/95_test_vectors.md W1 to W9, bit by bit as the formats of spec/30_encoding.md sections 4 and 5 give
them (the encodings are the spec's own: D10, D11). -/
def Obligations.SpecWordsDecode : Prop :=
  decode (.command 0b00000000000000100#17) = .ok (.encode 4 false) ∧
  decode (.command 0b00000000000010100#17) = .ok (.encode 4 true) ∧
  decode (.command 0b00000000000011111#17) = .ok (.encode 15 true) ∧
  decode (.command 0b00000000000100000#17) = .error .reservedEncoding ∧
  decode (.command 0b01111111111100100#17) = .error .reservedEncoding ∧
  decode (.command 0b10000000000000000#17) = .ok (.transmit 0x00 0x00) ∧
  decode (.command 0b11001100100000100#17) = .ok (.transmit 0x99 0x04) ∧
  decode (.command 0b11111111111111111#17) = .ok (.transmit 0xFF 0xFF) ∧
  decode (.event 0b000#3) = .ok .dataLo ∧ decode (.event 0b001#3) = .ok .dataHi ∧
  decode (.event 0b010#3) = .ok .clkLo ∧ decode (.event 0b011#3) = .ok .clkHi ∧
  decode (.event 0b100#3) = .ok .latchLo ∧ decode (.event 0b101#3) = .ok .latchHi ∧
  decode (.event 0b110#3) = .error .reservedEncoding ∧ decode (.event 0b111#3) = .error .reservedEncoding

/-- Decoding the encoding of a well-formed instruction gives it back, at every operand (spec/30_encoding.md sections 4
and 5). -/
def Obligations.DecodeEncodeAgree : Prop :=
  ∀ i : Instr, i.wellFormed = true → decode (encode i) = .ok i

/-- Every word that decodes is the encoding of what it decodes to: one word, one meaning, and no word of another
instruction (spec/30_encoding.md sections 4, 5 and 8). -/
def Obligations.EncodeDecodeAgree : Prop :=
  ∀ (e : Encoded) (i : Instr), decode e = .ok i → i.wellFormed = true ∧ encode i = e

/-- Exactly the reserved words are rejected: a format-E word with any of bits 15..5 set, event codes 6 and 7; and
performing one is refused by that name (spec/30_encoding.md section 8, D10, D11). -/
def Obligations.ReservedEncodingsRefused : Prop :=
  (∀ w : CommandWord, decode (.command w) = .error .reservedEncoding ↔
    w.getLsbD 16 = false ∧ ∃ k, 5 ≤ k ∧ k ≤ 15 ∧ w.getLsbD k = true) ∧
  (∀ c : EventCode, decode (.event c) = .error .reservedEncoding ↔ c = 6#3 ∨ c = 7#3) ∧
  (∀ (e : Encoded) (s : State), decode e = .error .reservedEncoding →
    perform e s = .refused .reservedEncoding)

/-! ### The step and the instruction -/

/-- A step runs the decoded instruction: a command word on the strobe, a command word the host presents between
frames, and in a frame the event code that `PHASE` selects (spec/41_transmit.md sections 3 and 5, log 7, 8, 9). -/
def Obligations.StepRunsDecoded : Prop :=
  (∀ (s : State) (w : CommandWord) (i : Instr), s.nextMove = .strobe w → decode (.command w) = .ok i →
    step s = exec i s.takeMove) ∧
  (∀ (s : State) (pins : Pins) (w : CommandWord) (rest : List HostOp) (i : Instr),
    s.nextMove = .go pins → s.phase = .idle → s.agenda = .command w :: rest → decode (.command w) = .ok i →
    step s = exec i { s.takeMove with agenda := rest }) ∧
  (∀ (s : State) (pins : Pins) (n : Fin 50) (i : Instr), s.nextMove = .go pins → s.phase = .event n →
    decode (.event (frameEvent s.frame n.val).code) = .ok i → step s = exec i s.takeMove)

/-- Placing the bits of a table row makes the very next step run what they decode to (log 9). -/
def Obligations.FetchWordRunsInstruction : Prop :=
  ∀ (s : State) (nbits w : Nat) (i : Instr), decodeTableWord nbits w = some i →
    step (s.withFetchWord nbits w) = exec i (s.withFetchWord nbits w).takeMove

/-! ### ENCODE -/

/-- R111: with `dp = 0` the result is the ROM entry unchanged, that is the complement of the common-cathode code it is
derived from, and nothing else changes. The place of the result, `segOut`, is the model's (log 2). -/
def Obligations.EncodeReturnsRomEntry : Prop :=
  ∀ (s : State) (d : Nat) (h : d < 10),
    exec (.encode d false) s = .next { s with segOut := s.pattern[d] } ∧
    (∀ cc : Vector Byte 10, (∀ k : Fin 10, s.pattern[k] = ~~~cc[k]) →
      exec (.encode d false) s = .next { s with segOut := ~~~cc[d] })

/-- R112: with `dp = 1` bit 7 is cleared and bits 6..0 are unchanged; one expression covers both values of `dp`; no
assumption on the entry's bit 7, so clearing is by AND. -/
def Obligations.EncodeClearsPointBit : Prop :=
  ∀ (s : State) (d : Nat) (h : d < 10),
    exec (.encode d true) s = .next { s with segOut := s.pattern[d] &&& 0x7F#8 } ∧
    (∀ dp : Bool, exec (.encode d dp) s =
      .next { s with segOut := s.pattern[d] &&& ~~~((BitVec.ofBool dp).zeroExtend 8 <<< 7) }) ∧
    (s.pattern[d] &&& 0x7F#8).getLsbD 7 = false ∧
    (∀ k, k < 7 → (s.pattern[d] &&& 0x7F#8).getLsbD k = s.pattern[d].getLsbD k)

/-- The laws (a) to (e) of spec/40_encode.md section 2, for every well-formed ROM and every common-cathode table it is
the complement of. -/
def Obligations.EncodeLaws : Prop :=
  ∀ (s : State) (d : Nat) (h : d < 10), s.RomWf →
    ∃ off on : State, exec (.encode d false) s = .next off ∧ exec (.encode d true) s = .next on ∧
      on.segOut = off.segOut &&& 0x7F#8 ∧
      off.segOut.getLsbD 7 = true ∧ on.segOut.getLsbD 7 = false ∧
      (∀ k, k < 7 → off.segOut.getLsbD k = s.pattern[d].getLsbD k ∧ on.segOut.getLsbD k = s.pattern[d].getLsbD k) ∧
      off.segOut.toNat - on.segOut.toNat = 0x80 ∧
      (∀ cc : Vector Byte 10, (∀ k : Fin 10, s.pattern[k] = ~~~cc[k]) → ~~~off.segOut = cc[d])

/-- A digit outside 0..9, however large, has no result: ENCODE is refused by name, and so is the SHOWDIGIT that would
perform it (spec/40_encode.md section 1, spec/43_render.md section 3, D3, U1; log 11). -/
def Obligations.EncodeOutOfRangeRefused : Prop :=
  (∀ (s : State) (d : Nat) (dp : Bool), 10 ≤ d → exec (.encode d dp) s = .refused .digitOutOfRange) ∧
  (∀ (s : State) (pins : Pins) (i : Fin 4) (d : Nat) (dp : Bool) (rest : List HostOp),
    s.nextMove = .go pins → s.phase = .idle → s.agenda = .showDigit i d dp :: rest → 10 ≤ d →
    step s = .refused .digitOutOfRange)

/-- ENCODE is a function of its operands and the pattern ROM alone, at any time, a frame in progress or not: two states
that agree on the ROM get the same byte, and only the caller's byte changes (spec/40_encode.md section 1; log 2). -/
def Obligations.EncodeDependsOnOperandsOnly : Prop :=
  ∀ (s t : State) (d : Nat) (dp : Bool), d < 10 → t.pattern = s.pattern →
    ∃ b : Byte, exec (.encode d dp) s = .next { s with segOut := b } ∧
      exec (.encode d dp) t = .next { t with segOut := b }

/-! ### TRANSMIT: acceptance and micro-operations -/

/-- Acceptance, one step: the operands into `SEG` and `SEL`, `PHASE` to 0, nothing else, for every pair of operands
(spec/41_transmit.md section 3, D7, D8). -/
def Obligations.TransmitAccepted : Prop :=
  ∀ (s : State) (a b : Byte), s.phase = .idle →
    exec (.transmit a b) s = .next { s with seg := a, sel := b, phase := .event 0 }

/-- A TRANSMIT presented while a frame is in progress is refused by name (spec/41_transmit.md section 3, D9; log 12). -/
def Obligations.TransmitRefusedWhileBusy : Prop :=
  ∀ (s : State) (a b : Byte) (n : Fin 50), s.phase = .event n →
    exec (.transmit a b) s = .refused .busBusy

/-- R131, R132: the data micro-operations set the line and append the event, whatever the line held; they are issued at
index `1 + 3k` by the bit `FRAME[15 - k]`. Only `PHASE` is left open here. -/
def Obligations.DataMicroOps : Prop :=
  (∀ s : State, ∃ t : State, exec .dataLo s = .next t ∧
    t = { s with data := false, trace := s.trace ++ [⟨.data, false⟩], phase := t.phase }) ∧
  (∀ s : State, ∃ t : State, exec .dataHi s = .next t ∧
    t = { s with data := true, trace := s.trace ++ [⟨.data, true⟩], phase := t.phase }) ∧
  (∀ (s : State) (pins : Pins) (n : Fin 50) (k : Nat), s.nextMove = .go pins → s.phase = .event n → k < 16 →
    n.val = 1 + 3 * k →
    (s.frame.getLsbD (15 - k) = false → step s = exec .dataLo s.takeMove) ∧
    (s.frame.getLsbD (15 - k) = true → step s = exec .dataHi s.takeMove))

/-- R133, R134: the clock micro-operations; issued at `3 + 3k` and `2 + 3k`; inside a frame `CLK_LO` is always a falling
edge, `CLK_HI` a rising edge for `k` = 1..15, and for `k = 0` exactly when `CLOCK` was 0 when the frame began, since
the steps at indices 0 and 1 leave it. The receiver's `SR` and `PHASE` are left open here. -/
def Obligations.ClockMicroOps : Prop :=
  (∀ s : State, ∃ t : State, exec .clkLo s = .next t ∧
    t = { s with clock := false, trace := s.trace ++ [⟨.clock, false⟩], sr := t.sr, phase := t.phase }) ∧
  (∀ s : State, ∃ t : State, exec .clkHi s = .next t ∧
    t = { s with clock := true, trace := s.trace ++ [⟨.clock, true⟩], sr := t.sr, phase := t.phase }) ∧
  (∀ (s : State) (pins : Pins) (n : Fin 50) (k : Nat), s.nextMove = .go pins → s.phase = .event n → k < 16 →
    (n.val = 2 + 3 * k → step s = exec .clkHi s.takeMove ∧
      ∃ t, step s = .next t ∧ ∃ h : n.val + 1 < 50, t.phase = .event ⟨n.val + 1, h⟩) ∧
    (n.val = 3 + 3 * k → step s = exec .clkLo s.takeMove)) ∧
  (∀ (s : State) (n : Fin 50) (k : Nat), s.FrameWf → s.phase = .event n → k < 16 →
    (n.val = 3 + 3 * k → s.clock = true) ∧ (1 ≤ k → n.val = 2 + 3 * k → s.clock = false)) ∧
  (∀ (s t : State) (pins : Pins) (n : Fin 50), s.nextMove = .go pins → s.phase = .event n → n.val ≤ 1 →
    step s = .next t → t.clock = s.clock)

/-- `LATCH_LO` at index 0 and only there, the receiver does nothing on it, a falling edge in every frame but possibly the
first; `LATCH_HI` at index 49 and only there, a rising edge inside a frame, and then `Q` takes `SR` (spec/41_transmit.md
section 2). That a `LATCH_HI` with `LATCH` already 1 leaves `Q` is the spec's decision (spec/42_receiver_and_display.md
section 2, D14, D17). Only `PHASE` is left open here. -/
def Obligations.LatchMicroOps : Prop :=
  (∀ s : State, ∃ t : State, exec .latchLo s = .next t ∧
    t = { s with latch := false, trace := s.trace ++ [⟨.latch, false⟩], phase := t.phase }) ∧
  (∀ s : State, ∃ t : State, exec .latchHi s = .next t ∧
    t = { s with latch := true, trace := s.trace ++ [⟨.latch, true⟩], q := t.q, phase := t.phase } ∧
    (s.latch = false → t.q = s.sr) ∧ (s.latch = true → t.q = s.q)) ∧
  (∀ (s : State) (pins : Pins) (n : Fin 50), s.nextMove = .go pins → s.phase = .event n →
    (n.val = 0 → step s = exec .latchLo s.takeMove) ∧ (n.val = 49 → step s = exec .latchHi s.takeMove) ∧
    ((frameEvent s.frame n.val).line = .latch → n.val = 0 ∨ n.val = 49)) ∧
  (∀ (s : State) (n : Fin 50), s.FrameWf → s.phase = .event n →
    (n.val = 0 → s.trace ≠ [] → s.latch = true) ∧ (n.val = 49 → s.latch = false))

/-- R139, its table: the micro-operation that `PHASE = n` issues, read off `SEG` and `SEL`; then `PHASE` advances. At
`IDLE` the serializer has no step: whatever a step does there, it writes no line. -/
def Obligations.SerializerFollowsTable : Prop :=
  (∀ (s : State) (pins : Pins) (n : Fin 50), s.nextMove = .go pins → s.phase = .event n →
    ∃ t : State, step s = .next t ∧ t.phase = s.phase.advanced ∧
      (n.val = 0 → exec .latchLo s.takeMove = .next t) ∧
      (∀ k, k < 8 → n.val = 1 + 3 * k →
        exec (if s.seg.getLsbD (7 - k) = true then .dataHi else .dataLo) s.takeMove = .next t) ∧
      (∀ k, 8 ≤ k → k < 16 → n.val = 1 + 3 * k →
        exec (if s.sel.getLsbD (15 - k) = true then .dataHi else .dataLo) s.takeMove = .next t) ∧
      (∀ k, k < 16 → n.val = 2 + 3 * k → exec .clkHi s.takeMove = .next t) ∧
      (∀ k, k < 16 → n.val = 3 + 3 * k → exec .clkLo s.takeMove = .next t) ∧
      (n.val = 49 → exec .latchHi s.takeMove = .next t)) ∧
  (∀ s t : State, s.phase = .idle → s.nextMove.notPowerCycle = true → step s = .next t →
    t.trace = s.trace ∧ t.data = s.data ∧ t.clock = s.clock ∧ t.latch = s.latch)

/-- `PHASE` has no other transition than acceptance (`IDLE` to 0, only when the word presented, on the strobe or by the main
loop, is a TRANSMIT, whose operands are then in `SEG` and `SEL`), advance (`n` to `n + 1`, 49 to `IDLE`) and power-on: no
skip, repeat, abort or wait, and in a frame it advances exactly at the serializer's steps (spec/41_transmit.md
section 3, D8). -/
def Obligations.PhaseTransitions : Prop :=
  ∀ s t : State, step s = .next t → s.nextMove.notPowerCycle = true →
    match s.phase with
    | .idle =>
      t.phase = .idle ∨
      (t.phase = .event 0 ∧ ∃ (w : CommandWord) (a b : Byte), s.presents w ∧
        decode (.command w) = .ok (.transmit a b) ∧ t.seg = a ∧ t.sel = b)
    | .event n =>
      if s.nextMove.isGo = true then
        (∃ h : n.val + 1 < 50, t.phase = .event ⟨n.val + 1, h⟩) ∨ (n.val = 49 ∧ t.phase = .idle)
      else t.phase = .event n

/-! ### TRANSMIT: whole frames -/

/-- The two levels agree: acceptance and fifty serializer steps leave exactly the state of the whole operation, receiver
and trace included, with `PHASE = IDLE`, `DATA = digitSelect[0]`, `CLOCK = 0`, `LATCH = 1` (spec/41_transmit.md section 3,
derived there). -/
def Obligations.TwoLevelsAgree : Prop :=
  ∀ (s : State) (a b : Byte) (pins : Pins) (rest : List Move), s.phase = .idle →
    ∃ t : State, runSteps 51 (s.presentTransmit a b pins rest) = .next t ∧
      t = State.transmitWhole { s with inputs := rest } a b ∧
      t.phase = .idle ∧ t.data = b.getLsbD 0 ∧ t.clock = false ∧ t.latch = true

/-- R52: the bits of `segments` from 7 down to 0, each set on the data line and clocked high then low, then those of
`digitSelect` the same way; these and the latch writes around them are all the events of a TRANSMIT. -/
def Obligations.FrameBitExact : Prop :=
  ∀ (s : State) (a b : Byte) (pins : Pins) (rest : List Move), s.phase = .idle →
    ∃ t : State, runSteps 51 (s.presentTransmit a b pins rest) = .next t ∧
      t.trace = s.trace ++ [⟨.latch, false⟩] ++
        [7, 6, 5, 4, 3, 2, 1, 0].flatMap (fun j => [⟨.data, a.getLsbD j⟩, ⟨.clock, true⟩, ⟨.clock, false⟩]) ++
        [7, 6, 5, 4, 3, 2, 1, 0].flatMap (fun j => [⟨.data, b.getLsbD j⟩, ⟨.clock, true⟩, ⟨.clock, false⟩]) ++
        [⟨.latch, true⟩]

/-- R143: the counts of a frame, for every pair of operands. -/
def Obligations.FrameCounts : Prop :=
  ∀ (s : State) (a b : Byte) (pins : Pins) (rest : List Move), s.phase = .idle →
    ∃ (t : State) (es : List Event), runSteps 51 (s.presentTransmit a b pins rest) = .next t ∧
      t.trace = s.trace ++ es ∧ es.length = 50 ∧
      es.count ⟨.latch, false⟩ = 1 ∧ es.head? = some ⟨.latch, false⟩ ∧
      es.count ⟨.latch, true⟩ = 1 ∧ es.getLast? = some ⟨.latch, true⟩ ∧
      es.countP (fun e => e.line = .data) = 16 ∧
      es.count ⟨.clock, true⟩ = 16 ∧ es.count ⟨.clock, false⟩ = 16 ∧
      (∀ n, es[n]? = some ⟨.clock, true⟩ → es[n + 1]? = some ⟨.clock, false⟩) ∧
      (∀ n v, es[n]? = some ⟨.data, v⟩ → es[n + 1]? = some ⟨.clock, true⟩) ∧
      es.count ⟨.data, true⟩ = (List.range 16).countP (fun k => (frameOf a b).getLsbD k) ∧
      es.count ⟨.data, false⟩ = 16 - (List.range 16).countP (fun k => (frameOf a b).getLsbD k)

/-- The edges of a frame by the levels it starts from: 16 or 15 rising clock edges, 16 falling, at most one falling latch
edge and one rising (spec/41_transmit.md section 4, derived there). -/
def Obligations.FrameEdges : Prop :=
  ∀ (frame : Frame) (c0 l0 : Bool),
    countEdges .rising .clock c0 (frameEvents frame) = (if c0 = true then 15 else 16) ∧
    countEdges .falling .clock c0 (frameEvents frame) = 16 ∧
    countEdges .falling .latch l0 (frameEvents frame) = (if l0 = true then 1 else 0) ∧
    countEdges .rising .latch l0 (frameEvents frame) = 1

/-- One TRANSMIT that begins with `CLOCK = 0` replaces the sixteen outputs by its operands at its last event and leaves `Q`
alone before it, on either receiver edge (spec/42_receiver_and_display.md section 2, derived there; D14). -/
def Obligations.TransmitCommitsOperands : Prop :=
  ∀ (s : State) (a b : Byte) (pins : Pins) (rest : List Move), s.phase = .idle → s.clock = false →
    (∀ k, k ≤ 50 → ∃ u : State, runSteps k (s.presentTransmit a b pins rest) = .next u ∧ u.q = s.q) ∧
    (∃ t : State, runSteps 51 (s.presentTransmit a b pins rest) = .next t ∧ t.q = a ++ b ∧ t.sr = a ++ b)

/-- The one misaligned case: a frame accepted while `CLOCK = 1`. A rising-edge receiver misses the first bit and keeps the
old `SR[0]` in bit 15; a falling-edge receiver gets the frame (spec/42_receiver_and_display.md section 4, derived
there; D14). Nothing is assumed of `SR[0]`. -/
def Obligations.FirstFrameHazard : Prop :=
  ∀ (s : State) (a b : Byte) (pins : Pins) (rest : List Move), s.phase = .idle → s.clock = true →
    ∃ t : State, runSteps 51 (s.presentTransmit a b pins rest) = .next t ∧ t.q = t.sr ∧
      (s.rxEdge = .rising →
        t.sr.getLsbD 15 = s.sr.getLsbD 0 ∧ t.sr.extractLsb' 0 15 = (a ++ b).extractLsb' 0 15) ∧
      (s.rxEdge = .falling → t.sr = a ++ b)

/-- A tick between two events of a frame changes nothing of it: the tick and the serializer's step commute
(spec/20_memory.md section 5, derived there). -/
def Obligations.TickCommutesWithSerializer : Prop :=
  ∀ (s : State) (pins : Pins) (n : Fin 50) (rest : List Move), s.phase = .event n →
    ∃ t : State, runSteps 2 { s with inputs := .tick :: .go pins :: rest } = .next t ∧
      runSteps 2 { s with inputs := .go pins :: .tick :: rest } = .next t ∧
      t.trace = s.trace ++ [frameEvent s.frame n.val]

/-- Progress: an accepted frame completes in exactly fifty serializer steps however many ticks are interleaved, its events
are the frame's, and every tick counts once (spec/70_reset_and_hazards.md section 4, derived there; D28). -/
def Obligations.FrameCompletesUnderTicks : Prop :=
  ∀ (s : State) (moves rest : List Move), s.phase = .event 0 →
    (∀ m ∈ moves, m.isGo = true ∨ m.isTick = true) → moves.countP Move.isGo = 50 →
    ∃ t : State, runSteps moves.length { s with inputs := moves ++ rest } = .next t ∧
      t.phase = .idle ∧ t.trace = s.trace ++ frameEvents s.frame ∧ t.inputs = rest ∧ t.agenda = s.agenda ∧
      t.minutes = (State.ticks (moves.countP Move.isTick) s).minutes ∧
      t.seconds = (State.ticks (moves.countP Move.isTick) s).seconds

/-! ### The lines and the receiver over every step -/

/-- `SR` shifts exactly on the active clock edge and `Q` takes `SR` exactly on a rising latch edge, whatever else a step
does (spec/42_receiver_and_display.md section 2, D14). -/
def Obligations.ReceiverFollowsLines : Prop :=
  ∀ s t : State, step s = .next t → s.nextMove.notPowerCycle = true →
    t.sr = (if activeEdge s.rxEdge s.clock t.clock = true then s.sr.extractLsb' 0 15 ++ BitVec.ofBool s.data
      else s.sr) ∧
    t.q = (if risingEdge s.latch t.latch = true then s.sr else s.q)

/-- The lines and the receiver are a function of the events: a step appends at most one event, and the lines, `SR` and `Q`
are what that event makes of them (spec/10_state.md section 8, D26). -/
def Obligations.TraceDrivesReceiver : Prop :=
  ∀ s t : State, step s = .next t → s.nextMove.notPowerCycle = true →
    ∃ es : List Event, es.length ≤ 1 ∧ t.trace = s.trace ++ es ∧
      t.data = (s.emitAll es).data ∧ t.clock = (s.emitAll es).clock ∧ t.latch = (s.emitAll es).latch ∧
      t.sr = (s.emitAll es).sr ∧ t.q = (s.emitAll es).q

/-- Only a serializer step of a frame in progress writes a line or moves the receiver: no tick, no command and no
main-loop step does (spec/10_state.md section 4). -/
def Obligations.OnlySerializerWritesLines : Prop :=
  ∀ s t : State, step s = .next t → s.nextMove.notPowerCycle = true →
    (s.nextMove.isGo = true ∧ ∃ n, s.phase = .event n ∧ t.trace = s.trace ++ [frameEvent s.frame n.val] ∧
      t.seg = s.seg ∧ t.sel = s.sel ∧ t.agenda = s.agenda ∧ t.seconds = s.seconds ∧ t.minutes = s.minutes) ∨
    (t.trace = s.trace ∧ t.data = s.data ∧ t.clock = s.clock ∧ t.latch = s.latch ∧ t.sr = s.sr ∧ t.q = s.q)

/-! ### The display -/

/-- With a table that tells digits apart, the frame of an ENCODE result and a mask entry reads back as that digit, that
point and that one position (spec/42_receiver_and_display.md section 3, D16; spec/40_encode.md section 2). -/
def Obligations.DisplayShowsEncodedDigit : Prop :=
  ∀ (s : State) (d : Fin 10) (dp : Bool) (p : Fin 4), s.RomWf → s.PatternInjective →
    ∃ t : State, exec (.encode d.val dp) s = .next t ∧
      shownDigit s.pattern (frameOf t.segOut s.mask[p]) = some d ∧
      shownPoint (frameOf t.segOut s.mask[p]) = dp ∧
      shownPositions s.mask (frameOf t.segOut s.mask[p]) = [p]

/-- A frame with the mask of position `p` lights nothing elsewhere, and on `p` exactly the segments, and the point, whose
bit is 0 (spec/42_receiver_and_display.md section 3, D16; log 19). -/
def Obligations.OneHotMaskLightsOnePosition : Prop :=
  ∀ (s : State) (seg : Byte) (p r : Fin 4) (x : Segment), s.RomWf →
    (segmentLit s.mask (frameOf seg s.mask[p]) r x = true ↔ r = p ∧ seg.getLsbD x.bit = false) ∧
    (pointLit s.mask (frameOf seg s.mask[p]) r = true ↔ r = p ∧ seg.getLsbD 7 = false)

/-! ### RENDER -/

/-- R181: a RENDER of a non-negative value takes its four digits, thousands at position 0 to units at position 3, and the
four SHOWDIGITs follow in that order, with the point where `show && i == pos`. -/
def Obligations.RenderDecomposes : Prop :=
  ∀ (s : State) (pins : Pins) (v : Nat) (showPoint : Bool) (pos : Int) (rest : List HostOp),
    s.nextMove = .go pins → s.phase = .idle → s.agenda = .render v showPoint pos :: rest →
    step s = .next
      { s.takeMove with
        agenda :=
          [.showDigit 0 (v / 1000 % 10) (showPoint && pos == 0), .showDigit 1 (v / 100 % 10) (showPoint && pos == 1),
            .showDigit 2 (v / 10 % 10) (showPoint && pos == 2), .showDigit 3 (v % 10) (showPoint && pos == 3)] ++ rest }

/-- R186: the truncation law, and values of 10000 and more alias to their low four digits: the two RENDERs are the same
step, with no fault, clamp or blanking, and make the same events. -/
def Obligations.TruncationLaw : Prop :=
  (∀ v : Nat, 1000 * digitAt v 0 + 100 * digitAt v 1 + 10 * digitAt v 2 + digitAt v 3 = v % 10000) ∧
  (∀ (v : Nat) (showPoint : Bool) (pos : Int) (pins : Pins) (s : State),
    hostOp (.render v showPoint pos) pins s = hostOp (.render (v % 10000 : Nat) showPoint pos) pins s ∧
    (∃ t, hostOp (.render v showPoint pos) pins s = .next t) ∧
    renderEvents s.pattern s.mask v showPoint pos = renderEvents s.pattern s.mask (v % 10000) showPoint pos)

/-- R187: with `show` true and `pos` in 0..3 exactly the ENCODE of position `pos` gets the point; with `show` false or `pos`
outside 0..3 none does; and with a well-formed ROM the frames with the point bit clear are at most one. -/
def Obligations.DecimalPointPlacement : Prop :=
  (∀ (v : Nat) (pos : Int) (pins : Pins) (s : State), pos < 0 ∨ 3 < pos →
    hostOp (.render v true pos) pins s = hostOp (.render v false 0) pins s) ∧
  (∀ (v : Nat) (pos : Int) (pins : Pins) (s : State),
    hostOp (.render v false pos) pins s =
      .next { s with agenda := (List.finRange 4).map (fun i => .showDigit i (digitAt v i) false) ++ s.agenda }) ∧
  (∀ (v : Nat) (p : Fin 4) (pins : Pins) (s : State),
    hostOp (.render v true p.val) pins s =
      .next { s with agenda := (List.finRange 4).map (fun i => .showDigit i (digitAt v i) (i == p)) ++ s.agenda }) ∧
  (∀ (s : State) (v : Nat) (showPoint : Bool) (pos : Int), s.RomWf →
    (renderFrames s.pattern s.mask v showPoint pos).length = 4 ∧
    (renderFrames s.pattern s.mask v showPoint pos).countP (fun f => !f.getLsbD 15) =
      if showPoint = true ∧ 0 ≤ pos ∧ pos ≤ 3 then 1 else 0)

/-- RENDER of a negative value is refused by name and emits nothing (spec/43_render.md section 2, D18; log 12). -/
def Obligations.NegativeValueRefused : Prop :=
  ∀ (s : State) (pins : Pins) (v : Int) (showPoint : Bool) (pos : Int) (rest : List HostOp),
    s.nextMove = .go pins → s.phase = .idle → s.agenda = .render v showPoint pos :: rest → v < 0 →
    step s = .refused .negativeValue

/-- SHOWDIGIT as a whole, 53 steps: ENCODE, TRANSMIT of its byte with `MASK[i]`, fifty events, WAIT; the result is the
whole TRANSMIT and nothing else (spec/43_render.md section 3). -/
def Obligations.ShowDigitWhole : Prop :=
  ∀ (s : State) (pins : Pins) (i : Fin 4) (d : Nat) (h : d < 10) (dp : Bool) (rest : List HostOp)
    (moves : List Move), s.phase = .idle → s.agenda = .showDigit i d dp :: rest →
    runSteps 53 { s with inputs := List.replicate 53 (.go pins) ++ moves } =
      .next (State.transmitWhole
        { s with agenda := rest, inputs := moves, segOut := gateDp s.pattern[d] dp } (gateDp s.pattern[d] dp) s.mask[i])

/-- RENDER as a whole, 213 steps of the main loop and the serializer with any number of ticks at any boundaries: exactly
the 200 events of its four frames, whatever the ticks, then idle with `LATCH = 1`, `CLOCK = 0`, `DATA = MASK[3][0]`, and
from a start with `CLOCK = 0` the units digit alone in `Q`; ClockState has advanced by the ticks and no more, and the
ROMs are untouched (spec/43_render.md sections 4 and 5, derived there; the count of steps is log 8's). -/
def Obligations.RenderWhole : Prop :=
  ∀ (s : State) (v : Nat) (showPoint : Bool) (pos : Int) (rest : List HostOp) (moves later : List Move),
    s.phase = .idle → s.agenda = .render v showPoint pos :: rest →
    (∀ m ∈ moves, m.isGo = true ∨ m.isTick = true) → moves.countP Move.isGo = 213 →
    ∃ t : State, runSteps moves.length { s with inputs := moves ++ later } = .next t ∧
      t.trace = s.trace ++ renderEvents s.pattern s.mask v showPoint pos ∧
      (renderEvents s.pattern s.mask v showPoint pos).length = 200 ∧
      t.phase = .idle ∧ t.latch = true ∧ t.clock = false ∧ t.data = s.mask[3].getLsbD 0 ∧
      t.agenda = rest ∧ t.inputs = later ∧
      t.seconds = (State.ticks (moves.countP Move.isTick) s).seconds ∧
      t.minutes = (State.ticks (moves.countP Move.isTick) s).minutes ∧
      t.pattern = s.pattern ∧ t.mask = s.mask ∧
      (s.clock = false →
        t.q = frameOf (gateDp (s.pattern[v % 10]'(Nat.mod_lt v (by decide))) (showPoint && pos == 3)) s.mask[3])

/-- The perceived readout of a RENDER that begins with `CLOCK = 0`: its four commits show the four digits, left to right,
with the point exactly at `pos` when `show` (spec/42_receiver_and_display.md section 5, D16; log 19). -/
def Obligations.PerceivedReadoutOfRender : Prop :=
  ∀ (s : State) (v : Nat) (showPoint : Bool) (pos : Int), s.RomWf → s.PatternInjective → s.clock = false →
    ∃ qs : Vector Frame 4, commitsOf s (renderEvents s.pattern s.mask v showPoint pos) = qs.toList ∧
      perceivedReadout s.pattern s.mask qs =
        (List.finRange 4).map fun i => some ⟨Fin.ofNat 10 (digitAt v i), pointAt showPoint pos i⟩

/-! ### ClockState, the tick and the main loop -/

/-- R201: TICK at a delivered tick, all of it: the transition with its wraps, no other state. -/
def Obligations.TickRule : Prop :=
  ∀ s : State, s.nextMove = .tick →
    (s.seconds + 1 ≠ 60 → step s = .next { s.takeMove with seconds := s.seconds + 1 }) ∧
    (s.seconds + 1 = 60 → s.minutes + 1 ≠ 100 →
      step s = .next { s.takeMove with seconds := 0, minutes := s.minutes + 1 }) ∧
    (s.seconds + 1 = 60 → s.minutes + 1 = 100 → step s = .next { s.takeMove with seconds := 0, minutes := 0 })

/-- The laws of TICK: from an in-range pair, `k` TICKs add `k` to the composite counter modulo 6000 and stay in range; so
60 from (m, 0) give ((m + 1) mod 100, 0), 3600 from (0, 0) give (60, 0) (C4), 6000 return
(spec/44_host_clock_and_arbiter.md section 1, derived there). -/
def Obligations.TickLaws : Prop :=
  (∀ (s : State) (k : Nat), s.ClockWf → (State.ticks k s).ClockWf ∧
    60 * (State.ticks k s).minutes + (State.ticks k s).seconds = (60 * s.minutes + s.seconds + k) % 6000) ∧
  (∀ s : State, s.ClockWf → s.seconds = 0 →
    (State.ticks 60 s).minutes = (s.minutes + 1) % 100 ∧ (State.ticks 60 s).seconds = 0) ∧
  (∀ s : State, s.minutes = 0 → s.seconds = 0 →
    (State.ticks 3600 s).minutes = 60 ∧ (State.ticks 3600 s).seconds = 0) ∧
  (∀ s : State, s.ClockWf → State.ticks 6000 s = s)

/-- CLKRESET sets both counters to 0 from any state and emits no line event, when no tick falls between its two writes
(spec/44_host_clock_and_arbiter.md section 1). That these are two steps of the main loop, in either order, with a
boundary between them at which a listed tick is performed, is the spec's decision D20; the bit that says which comes
first is log 7's. -/
def Obligations.ClkResetClears : Prop :=
  ∀ (s : State) (p1 p2 : Pins) (rest : List HostOp) (moves : List Move), s.phase = .idle →
    s.agenda = .clkReset :: rest →
    runSteps 2 { s with inputs := .go p1 :: .go p2 :: moves } =
      .next { s with seconds := 0, minutes := 0, agenda := rest, inputs := moves } ∧
    (p1.minutesFirst = true →
      step { s with inputs := .go p1 :: moves } =
        .next { s with minutes := 0, agenda := .clearSeconds :: rest, inputs := moves }) ∧
    (p1.minutesFirst = false →
      step { s with inputs := .go p1 :: moves } =
        .next { s with seconds := 0, agenda := .clearMinutes :: rest, inputs := moves }) ∧
    (∃ u : State, step { s with inputs := .go p1 :: .tick :: moves } = .next u ∧ u.nextMove = .tick ∧
      step u = .next { u.tick with inputs := moves })

/-- The race of the two reads: with `j` ticks delivered between them the value rendered mixes the counter read first as it
was with the other as it has become (spec/44_host_clock_and_arbiter.md section 1, D20). -/
def Obligations.TornReads : Prop :=
  ∀ (s : State) (p1 p2 : Pins) (j : Nat) (rest : List HostOp) (moves : List Move), s.phase = .idle →
    s.agenda = .readTime :: rest →
    ∃ t : State, runSteps (j + 2) { s with inputs := .go p1 :: (List.replicate j .tick ++ .go p2 :: moves) } = .next t ∧
      t.inputs = moves ∧ t.seconds = (State.ticks j s).seconds ∧ t.minutes = (State.ticks j s).minutes ∧
      t.agenda = .render
        (if p1.minutesFirst = true then s.minutes * 100 + (State.ticks j s).seconds
          else (State.ticks j s).minutes * 100 + s.seconds : Nat) true 1 :: rest

/-- The race of the two writes of CLKRESET: the ticks between them act on the counter already cleared and the one not yet
cleared (spec/44_host_clock_and_arbiter.md section 1, D20). -/
def Obligations.TornReset : Prop :=
  ∀ (s : State) (p1 p2 : Pins) (j : Nat) (rest : List HostOp) (moves : List Move), s.phase = .idle →
    s.agenda = .clkReset :: rest →
    ∃ t : State, runSteps (j + 2) { s with inputs := .go p1 :: (List.replicate j .tick ++ .go p2 :: moves) } = .next t ∧
      t.agenda = rest ∧ t.inputs = moves ∧ t.trace = s.trace ∧
      (p1.minutesFirst = true →
        t.seconds = 0 ∧ t.minutes = (State.ticks j { s with minutes := 0 }).minutes) ∧
      (p1.minutesFirst = false →
        t.minutes = 0 ∧ t.seconds = (State.ticks j { s with seconds := 0 }).seconds)

/-- R208: the reset branch. The button is asserted when its input reads 0; then CLKRESET and WAIT 200 come before the mode
test, which comes either way. -/
def Obligations.ResetBranch : Prop :=
  ∀ (s : State) (pins : Pins) (rest : List HostOp), s.nextMove = .go pins → s.phase = .idle →
    s.agenda = .pollReset :: rest →
    (pins.resetLevel = false →
      step s = .next { s.takeMove with agenda := .clkReset :: .wait 200 :: .pollMode :: rest }) ∧
    (pins.resetLevel = true → step s = .next { s.takeMove with agenda := .pollMode :: rest })

/-- The mode and the time branch, one of which runs in every iteration: with no tick in between, the mode input at 0 leads
to one RENDER of the scaled sample with the point at 0, else to one RENDER of `minutes * 100 + seconds` with the point at
1, in 0..9959 for in-range counters; the next iteration follows (spec/44_host_clock_and_arbiter.md section 2). -/
def Obligations.ModeAndTimeBranches : Prop :=
  ∀ (s : State) (p1 p2 p3 : Pins) (rest : List HostOp) (moves : List Move), s.phase = .idle →
    s.agenda = .pollMode :: rest →
    (p1.modeLevel = false →
      runSteps 2 { s with inputs := .go p1 :: .go p2 :: moves } =
        .next { s with agenda := .render (scaleSample s.scale p2.sample) true 0 :: .pollReset :: rest, inputs := moves }) ∧
    (p1.modeLevel = true →
      runSteps 3 { s with inputs := .go p1 :: .go p2 :: .go p3 :: moves } =
        .next { s with
          agenda := .render (s.minutes * 100 + s.seconds : Nat) true 1 :: .pollReset :: rest, inputs := moves }) ∧
    (s.ClockWf → s.minutes * 100 + s.seconds ≤ 9959)

/-- SCALE with exact arithmetic is the floor of 3300 times the sample, in 0..3300; an arithmetic the spec does not describe
stays in 0..3300 (spec/44_host_clock_and_arbiter.md section 2, D22; log 5). -/
def Obligations.ScaleExactIsFloor : Prop :=
  (∀ x : Sample, scaleSample .exact x * x.den ≤ x.num.val * 3300 ∧
    x.num.val * 3300 < (scaleSample .exact x + 1) * x.den) ∧
  (∀ x : Sample, scaleSample .exact x ≤ 3300) ∧
  (∀ x : Sample, scaleSample .unstated x ≤ 3300)

/-- WAIT changes no state and emits no event; the main loop moves past it (spec/43_render.md section 4, D24; log 24). -/
def Obligations.WaitHasNoEffect : Prop :=
  ∀ (s : State) (pins : Pins) (ms : Nat) (rest : List HostOp), s.nextMove = .go pins → s.phase = .idle →
    s.agenda = .wait ms :: rest → step s = .next { s.takeMove with agenda := rest }

/-- An idle block does nothing and emits nothing if no command comes (spec/41_transmit.md section 3, D8; log 15). -/
def Obligations.IdleBlockStaysIdle : Prop :=
  ∀ (s : State) (pins : Pins), s.nextMove = .go pins → s.phase = .idle → s.agenda = [] →
    step s = .next s.takeMove

/-! ### Reset, power-on, invariants -/

/-- What reset leaves: the default ROMs, `PHASE = IDLE`, `TRACE` empty, ClockState (0, 0), the host at the start of its main
loop (spec/10_state.md section 11, D12, D19). Nothing is said of the lines, `SEG`, `SEL`, `SR` and `Q`, whose values are
the model's choice (log 1). -/
def Obligations.ResetState : Prop :=
  State.reset.pattern = #v[0xC0, 0xF9, 0xA4, 0xB0, 0x99, 0x92, 0x82, 0xF8, 0x80, 0x90] ∧
  State.reset.mask = #v[0x01, 0x02, 0x04, 0x08] ∧ State.reset.phase = .idle ∧ State.reset.trace = [] ∧
  State.reset.seconds = 0 ∧ State.reset.minutes = 0 ∧ State.reset.agenda = [.pollReset]

/-- Losing and regaining power gives the reset state whatever the block was doing, with the unknown state as drawn and the
ROMs and parameters of the machine (spec/60_exceptions.md section 8, spec/70_reset_and_hazards.md section 1, D12, D15). -/
def Obligations.PowerCycleResets : Prop :=
  ∀ (s : State) (p : PowerOn), s.nextMove = .powerCycle p →
    ∃ t : State, step s = .next t ∧ t.phase = .idle ∧ t.trace = [] ∧ t.seconds = 0 ∧ t.minutes = 0 ∧
      t.agenda = [.pollReset] ∧ t.pattern = s.pattern ∧ t.mask = s.mask ∧ t.rxEdge = s.rxEdge ∧ t.scale = s.scale ∧
      t.data = p.data ∧ t.clock = p.clock ∧ t.latch = p.latch ∧ t.seg = p.seg ∧ t.sel = p.sel ∧
      t.sr = p.sr ∧ t.q = p.q

/-- The invariant holds at reset, and so do the conditions of a safe run. -/
def Obligations.ResetIsGood : Prop :=
  State.reset.Inv ∧ State.reset.AgendaOk ∧ State.reset.OneMaster ∧ State.reset.PatternInjective

/-- Every step keeps the invariant: the ROMs stay well formed, the counters in range (spec/44_host_clock_and_arbiter.md
section 1), and the lines hold what the place in the frame says (spec/41_transmit.md sections 3 and 4). -/
def Obligations.StepKeepsInvariant : Prop :=
  ∀ s t : State, s.Inv → step s = .next t → t.Inv

/-- The system with its one master never reaches a refusal: every step completes, the caller's duties stay respected, and
the main loop never holds `seconds = 60` or `minutes = 100` (spec/60_exceptions.md section 1, D29;
spec/44_host_clock_and_arbiter.md section 1). -/
def Obligations.OneMasterNeverRefused : Prop :=
  ∀ s : State, s.ClockWf → s.AgendaOk → s.OneMaster →
    ∃ t : State, step s = .next t ∧ t.ClockWf ∧ t.AgendaOk ∧ t.OneMaster

/-- The ROMs and the parameters of the machine never change, not even at power-on (spec/20_memory.md section 7, D25). -/
def Obligations.RomsConstant : Prop :=
  ∀ s t : State, step s = .next t →
    t.pattern = s.pattern ∧ t.mask = s.mask ∧ t.rxEdge = s.rxEdge ∧ t.scale = s.scale
end

