-- ==== Sys2Proof/Laws/State.lean ====
section
/-! SUPPORT. One lemma per field for every update of the state, each true by rfl, so that no proof unfolds a record
update. -/

namespace Sys2Proof.Machine

open Sys2Proof

/-! ### `emit` -/

@[simp] theorem State.emit_pattern (s : State) (l : Line) (v : Bool) : (s.emit l v).pattern = s.pattern := rfl
@[simp] theorem State.emit_mask (s : State) (l : Line) (v : Bool) : (s.emit l v).mask = s.mask := rfl
@[simp] theorem State.emit_data (s : State) (l : Line) (v : Bool) :
    (s.emit l v).data = if l = .data then v else s.data := rfl
@[simp] theorem State.emit_clock (s : State) (l : Line) (v : Bool) :
    (s.emit l v).clock = if l = .clock then v else s.clock := rfl
@[simp] theorem State.emit_latch (s : State) (l : Line) (v : Bool) :
    (s.emit l v).latch = if l = .latch then v else s.latch := rfl
@[simp] theorem State.emit_seg (s : State) (l : Line) (v : Bool) : (s.emit l v).seg = s.seg := rfl
@[simp] theorem State.emit_sel (s : State) (l : Line) (v : Bool) : (s.emit l v).sel = s.sel := rfl
@[simp] theorem State.emit_phase (s : State) (l : Line) (v : Bool) : (s.emit l v).phase = s.phase := rfl
@[simp] theorem State.emit_segOut (s : State) (l : Line) (v : Bool) : (s.emit l v).segOut = s.segOut := rfl
@[simp] theorem State.emit_trace (s : State) (l : Line) (v : Bool) : (s.emit l v).trace = s.trace ++ [⟨l, v⟩] := rfl
@[simp] theorem State.emit_rxEdge (s : State) (l : Line) (v : Bool) : (s.emit l v).rxEdge = s.rxEdge := rfl
@[simp] theorem State.emit_sr (s : State) (l : Line) (v : Bool) : (s.emit l v).sr = s.srAfter l v := rfl
@[simp] theorem State.emit_q (s : State) (l : Line) (v : Bool) : (s.emit l v).q = s.qAfter l v := rfl
@[simp] theorem State.emit_seconds (s : State) (l : Line) (v : Bool) : (s.emit l v).seconds = s.seconds := rfl
@[simp] theorem State.emit_minutes (s : State) (l : Line) (v : Bool) : (s.emit l v).minutes = s.minutes := rfl
@[simp] theorem State.emit_scale (s : State) (l : Line) (v : Bool) : (s.emit l v).scale = s.scale := rfl
@[simp] theorem State.emit_agenda (s : State) (l : Line) (v : Bool) : (s.emit l v).agenda = s.agenda := rfl
@[simp] theorem State.emit_inputs (s : State) (l : Line) (v : Bool) : (s.emit l v).inputs = s.inputs := rfl
@[simp] theorem State.emit_draws (s : State) (l : Line) (v : Bool) : (s.emit l v).draws = s.draws := rfl

/-! ### `advance` -/

@[simp] theorem State.advance_pattern (s : State) : (s.advance).pattern = s.pattern := rfl
@[simp] theorem State.advance_mask (s : State) : (s.advance).mask = s.mask := rfl
@[simp] theorem State.advance_data (s : State) : (s.advance).data = s.data := rfl
@[simp] theorem State.advance_clock (s : State) : (s.advance).clock = s.clock := rfl
@[simp] theorem State.advance_latch (s : State) : (s.advance).latch = s.latch := rfl
@[simp] theorem State.advance_seg (s : State) : (s.advance).seg = s.seg := rfl
@[simp] theorem State.advance_sel (s : State) : (s.advance).sel = s.sel := rfl
@[simp] theorem State.advance_phase (s : State) : (s.advance).phase = s.phase.advanced := rfl
@[simp] theorem State.advance_segOut (s : State) : (s.advance).segOut = s.segOut := rfl
@[simp] theorem State.advance_trace (s : State) : (s.advance).trace = s.trace := rfl
@[simp] theorem State.advance_rxEdge (s : State) : (s.advance).rxEdge = s.rxEdge := rfl
@[simp] theorem State.advance_sr (s : State) : (s.advance).sr = s.sr := rfl
@[simp] theorem State.advance_q (s : State) : (s.advance).q = s.q := rfl
@[simp] theorem State.advance_seconds (s : State) : (s.advance).seconds = s.seconds := rfl
@[simp] theorem State.advance_minutes (s : State) : (s.advance).minutes = s.minutes := rfl
@[simp] theorem State.advance_scale (s : State) : (s.advance).scale = s.scale := rfl
@[simp] theorem State.advance_agenda (s : State) : (s.advance).agenda = s.agenda := rfl
@[simp] theorem State.advance_inputs (s : State) : (s.advance).inputs = s.inputs := rfl
@[simp] theorem State.advance_draws (s : State) : (s.advance).draws = s.draws := rfl

/-! ### `accept` -/

@[simp] theorem State.accept_pattern (s : State) (a b : Byte) : (s.accept a b).pattern = s.pattern := rfl
@[simp] theorem State.accept_mask (s : State) (a b : Byte) : (s.accept a b).mask = s.mask := rfl
@[simp] theorem State.accept_data (s : State) (a b : Byte) : (s.accept a b).data = s.data := rfl
@[simp] theorem State.accept_clock (s : State) (a b : Byte) : (s.accept a b).clock = s.clock := rfl
@[simp] theorem State.accept_latch (s : State) (a b : Byte) : (s.accept a b).latch = s.latch := rfl
@[simp] theorem State.accept_seg (s : State) (a b : Byte) : (s.accept a b).seg = a := rfl
@[simp] theorem State.accept_sel (s : State) (a b : Byte) : (s.accept a b).sel = b := rfl
@[simp] theorem State.accept_phase (s : State) (a b : Byte) : (s.accept a b).phase = .event 0 := rfl
@[simp] theorem State.accept_segOut (s : State) (a b : Byte) : (s.accept a b).segOut = s.segOut := rfl
@[simp] theorem State.accept_trace (s : State) (a b : Byte) : (s.accept a b).trace = s.trace := rfl
@[simp] theorem State.accept_rxEdge (s : State) (a b : Byte) : (s.accept a b).rxEdge = s.rxEdge := rfl
@[simp] theorem State.accept_sr (s : State) (a b : Byte) : (s.accept a b).sr = s.sr := rfl
@[simp] theorem State.accept_q (s : State) (a b : Byte) : (s.accept a b).q = s.q := rfl
@[simp] theorem State.accept_seconds (s : State) (a b : Byte) : (s.accept a b).seconds = s.seconds := rfl
@[simp] theorem State.accept_minutes (s : State) (a b : Byte) : (s.accept a b).minutes = s.minutes := rfl
@[simp] theorem State.accept_scale (s : State) (a b : Byte) : (s.accept a b).scale = s.scale := rfl
@[simp] theorem State.accept_agenda (s : State) (a b : Byte) : (s.accept a b).agenda = s.agenda := rfl
@[simp] theorem State.accept_inputs (s : State) (a b : Byte) : (s.accept a b).inputs = s.inputs := rfl
@[simp] theorem State.accept_draws (s : State) (a b : Byte) : (s.accept a b).draws = s.draws := rfl

/-! ### `setSegOut` -/

@[simp] theorem State.setSegOut_pattern (s : State) (b : Byte) : (s.setSegOut b).pattern = s.pattern := rfl
@[simp] theorem State.setSegOut_mask (s : State) (b : Byte) : (s.setSegOut b).mask = s.mask := rfl
@[simp] theorem State.setSegOut_data (s : State) (b : Byte) : (s.setSegOut b).data = s.data := rfl
@[simp] theorem State.setSegOut_clock (s : State) (b : Byte) : (s.setSegOut b).clock = s.clock := rfl
@[simp] theorem State.setSegOut_latch (s : State) (b : Byte) : (s.setSegOut b).latch = s.latch := rfl
@[simp] theorem State.setSegOut_seg (s : State) (b : Byte) : (s.setSegOut b).seg = s.seg := rfl
@[simp] theorem State.setSegOut_sel (s : State) (b : Byte) : (s.setSegOut b).sel = s.sel := rfl
@[simp] theorem State.setSegOut_phase (s : State) (b : Byte) : (s.setSegOut b).phase = s.phase := rfl
@[simp] theorem State.setSegOut_segOut (s : State) (b : Byte) : (s.setSegOut b).segOut = b := rfl
@[simp] theorem State.setSegOut_trace (s : State) (b : Byte) : (s.setSegOut b).trace = s.trace := rfl
@[simp] theorem State.setSegOut_rxEdge (s : State) (b : Byte) : (s.setSegOut b).rxEdge = s.rxEdge := rfl
@[simp] theorem State.setSegOut_sr (s : State) (b : Byte) : (s.setSegOut b).sr = s.sr := rfl
@[simp] theorem State.setSegOut_q (s : State) (b : Byte) : (s.setSegOut b).q = s.q := rfl
@[simp] theorem State.setSegOut_seconds (s : State) (b : Byte) : (s.setSegOut b).seconds = s.seconds := rfl
@[simp] theorem State.setSegOut_minutes (s : State) (b : Byte) : (s.setSegOut b).minutes = s.minutes := rfl
@[simp] theorem State.setSegOut_scale (s : State) (b : Byte) : (s.setSegOut b).scale = s.scale := rfl
@[simp] theorem State.setSegOut_agenda (s : State) (b : Byte) : (s.setSegOut b).agenda = s.agenda := rfl
@[simp] theorem State.setSegOut_inputs (s : State) (b : Byte) : (s.setSegOut b).inputs = s.inputs := rfl
@[simp] theorem State.setSegOut_draws (s : State) (b : Byte) : (s.setSegOut b).draws = s.draws := rfl

/-! ### `tick` -/

@[simp] theorem State.tick_pattern (s : State) : (s.tick).pattern = s.pattern := rfl
@[simp] theorem State.tick_mask (s : State) : (s.tick).mask = s.mask := rfl
@[simp] theorem State.tick_data (s : State) : (s.tick).data = s.data := rfl
@[simp] theorem State.tick_clock (s : State) : (s.tick).clock = s.clock := rfl
@[simp] theorem State.tick_latch (s : State) : (s.tick).latch = s.latch := rfl
@[simp] theorem State.tick_seg (s : State) : (s.tick).seg = s.seg := rfl
@[simp] theorem State.tick_sel (s : State) : (s.tick).sel = s.sel := rfl
@[simp] theorem State.tick_phase (s : State) : (s.tick).phase = s.phase := rfl
@[simp] theorem State.tick_segOut (s : State) : (s.tick).segOut = s.segOut := rfl
@[simp] theorem State.tick_trace (s : State) : (s.tick).trace = s.trace := rfl
@[simp] theorem State.tick_rxEdge (s : State) : (s.tick).rxEdge = s.rxEdge := rfl
@[simp] theorem State.tick_sr (s : State) : (s.tick).sr = s.sr := rfl
@[simp] theorem State.tick_q (s : State) : (s.tick).q = s.q := rfl
@[simp] theorem State.tick_seconds (s : State) :
    (s.tick).seconds = if s.seconds + 1 = 60 then 0 else s.seconds + 1 := rfl
@[simp] theorem State.tick_minutes (s : State) :
    (s.tick).minutes = if s.seconds + 1 = 60 then (if s.minutes + 1 = 100 then 0 else s.minutes + 1) else s.minutes := rfl
@[simp] theorem State.tick_scale (s : State) : (s.tick).scale = s.scale := rfl
@[simp] theorem State.tick_agenda (s : State) : (s.tick).agenda = s.agenda := rfl
@[simp] theorem State.tick_inputs (s : State) : (s.tick).inputs = s.inputs := rfl
@[simp] theorem State.tick_draws (s : State) : (s.tick).draws = s.draws := rfl

/-! ### `clearSeconds` -/

@[simp] theorem State.clearSeconds_pattern (s : State) : (s.clearSeconds).pattern = s.pattern := rfl
@[simp] theorem State.clearSeconds_mask (s : State) : (s.clearSeconds).mask = s.mask := rfl
@[simp] theorem State.clearSeconds_data (s : State) : (s.clearSeconds).data = s.data := rfl
@[simp] theorem State.clearSeconds_clock (s : State) : (s.clearSeconds).clock = s.clock := rfl
@[simp] theorem State.clearSeconds_latch (s : State) : (s.clearSeconds).latch = s.latch := rfl
@[simp] theorem State.clearSeconds_seg (s : State) : (s.clearSeconds).seg = s.seg := rfl
@[simp] theorem State.clearSeconds_sel (s : State) : (s.clearSeconds).sel = s.sel := rfl
@[simp] theorem State.clearSeconds_phase (s : State) : (s.clearSeconds).phase = s.phase := rfl
@[simp] theorem State.clearSeconds_segOut (s : State) : (s.clearSeconds).segOut = s.segOut := rfl
@[simp] theorem State.clearSeconds_trace (s : State) : (s.clearSeconds).trace = s.trace := rfl
@[simp] theorem State.clearSeconds_rxEdge (s : State) : (s.clearSeconds).rxEdge = s.rxEdge := rfl
@[simp] theorem State.clearSeconds_sr (s : State) : (s.clearSeconds).sr = s.sr := rfl
@[simp] theorem State.clearSeconds_q (s : State) : (s.clearSeconds).q = s.q := rfl
@[simp] theorem State.clearSeconds_seconds (s : State) : (s.clearSeconds).seconds = 0 := rfl
@[simp] theorem State.clearSeconds_minutes (s : State) : (s.clearSeconds).minutes = s.minutes := rfl
@[simp] theorem State.clearSeconds_scale (s : State) : (s.clearSeconds).scale = s.scale := rfl
@[simp] theorem State.clearSeconds_agenda (s : State) : (s.clearSeconds).agenda = s.agenda := rfl
@[simp] theorem State.clearSeconds_inputs (s : State) : (s.clearSeconds).inputs = s.inputs := rfl
@[simp] theorem State.clearSeconds_draws (s : State) : (s.clearSeconds).draws = s.draws := rfl

/-! ### `clearMinutes` -/

@[simp] theorem State.clearMinutes_pattern (s : State) : (s.clearMinutes).pattern = s.pattern := rfl
@[simp] theorem State.clearMinutes_mask (s : State) : (s.clearMinutes).mask = s.mask := rfl
@[simp] theorem State.clearMinutes_data (s : State) : (s.clearMinutes).data = s.data := rfl
@[simp] theorem State.clearMinutes_clock (s : State) : (s.clearMinutes).clock = s.clock := rfl
@[simp] theorem State.clearMinutes_latch (s : State) : (s.clearMinutes).latch = s.latch := rfl
@[simp] theorem State.clearMinutes_seg (s : State) : (s.clearMinutes).seg = s.seg := rfl
@[simp] theorem State.clearMinutes_sel (s : State) : (s.clearMinutes).sel = s.sel := rfl
@[simp] theorem State.clearMinutes_phase (s : State) : (s.clearMinutes).phase = s.phase := rfl
@[simp] theorem State.clearMinutes_segOut (s : State) : (s.clearMinutes).segOut = s.segOut := rfl
@[simp] theorem State.clearMinutes_trace (s : State) : (s.clearMinutes).trace = s.trace := rfl
@[simp] theorem State.clearMinutes_rxEdge (s : State) : (s.clearMinutes).rxEdge = s.rxEdge := rfl
@[simp] theorem State.clearMinutes_sr (s : State) : (s.clearMinutes).sr = s.sr := rfl
@[simp] theorem State.clearMinutes_q (s : State) : (s.clearMinutes).q = s.q := rfl
@[simp] theorem State.clearMinutes_seconds (s : State) : (s.clearMinutes).seconds = s.seconds := rfl
@[simp] theorem State.clearMinutes_minutes (s : State) : (s.clearMinutes).minutes = 0 := rfl
@[simp] theorem State.clearMinutes_scale (s : State) : (s.clearMinutes).scale = s.scale := rfl
@[simp] theorem State.clearMinutes_agenda (s : State) : (s.clearMinutes).agenda = s.agenda := rfl
@[simp] theorem State.clearMinutes_inputs (s : State) : (s.clearMinutes).inputs = s.inputs := rfl
@[simp] theorem State.clearMinutes_draws (s : State) : (s.clearMinutes).draws = s.draws := rfl

/-! ### `powerOn` -/

@[simp] theorem State.powerOn_pattern (s : State) (p : PowerOn) : (s.powerOn p).pattern = s.pattern := rfl
@[simp] theorem State.powerOn_mask (s : State) (p : PowerOn) : (s.powerOn p).mask = s.mask := rfl
@[simp] theorem State.powerOn_data (s : State) (p : PowerOn) : (s.powerOn p).data = p.data := rfl
@[simp] theorem State.powerOn_clock (s : State) (p : PowerOn) : (s.powerOn p).clock = p.clock := rfl
@[simp] theorem State.powerOn_latch (s : State) (p : PowerOn) : (s.powerOn p).latch = p.latch := rfl
@[simp] theorem State.powerOn_seg (s : State) (p : PowerOn) : (s.powerOn p).seg = p.seg := rfl
@[simp] theorem State.powerOn_sel (s : State) (p : PowerOn) : (s.powerOn p).sel = p.sel := rfl
@[simp] theorem State.powerOn_phase (s : State) (p : PowerOn) : (s.powerOn p).phase = .idle := rfl
@[simp] theorem State.powerOn_segOut (s : State) (p : PowerOn) : (s.powerOn p).segOut = p.segOut := rfl
@[simp] theorem State.powerOn_trace (s : State) (p : PowerOn) : (s.powerOn p).trace = [] := rfl
@[simp] theorem State.powerOn_rxEdge (s : State) (p : PowerOn) : (s.powerOn p).rxEdge = s.rxEdge := rfl
@[simp] theorem State.powerOn_sr (s : State) (p : PowerOn) : (s.powerOn p).sr = p.sr := rfl
@[simp] theorem State.powerOn_q (s : State) (p : PowerOn) : (s.powerOn p).q = p.q := rfl
@[simp] theorem State.powerOn_seconds (s : State) (p : PowerOn) : (s.powerOn p).seconds = 0 := rfl
@[simp] theorem State.powerOn_minutes (s : State) (p : PowerOn) : (s.powerOn p).minutes = 0 := rfl
@[simp] theorem State.powerOn_scale (s : State) (p : PowerOn) : (s.powerOn p).scale = s.scale := rfl
@[simp] theorem State.powerOn_agenda (s : State) (p : PowerOn) : (s.powerOn p).agenda = [.pollReset] := rfl
@[simp] theorem State.powerOn_inputs (s : State) (p : PowerOn) : (s.powerOn p).inputs = s.inputs := rfl
@[simp] theorem State.powerOn_draws (s : State) (p : PowerOn) : (s.powerOn p).draws = s.draws := rfl

/-! ### `push` -/

@[simp] theorem State.push_pattern (s : State) (ops : List HostOp) : (s.push ops).pattern = s.pattern := rfl
@[simp] theorem State.push_mask (s : State) (ops : List HostOp) : (s.push ops).mask = s.mask := rfl
@[simp] theorem State.push_data (s : State) (ops : List HostOp) : (s.push ops).data = s.data := rfl
@[simp] theorem State.push_clock (s : State) (ops : List HostOp) : (s.push ops).clock = s.clock := rfl
@[simp] theorem State.push_latch (s : State) (ops : List HostOp) : (s.push ops).latch = s.latch := rfl
@[simp] theorem State.push_seg (s : State) (ops : List HostOp) : (s.push ops).seg = s.seg := rfl
@[simp] theorem State.push_sel (s : State) (ops : List HostOp) : (s.push ops).sel = s.sel := rfl
@[simp] theorem State.push_phase (s : State) (ops : List HostOp) : (s.push ops).phase = s.phase := rfl
@[simp] theorem State.push_segOut (s : State) (ops : List HostOp) : (s.push ops).segOut = s.segOut := rfl
@[simp] theorem State.push_trace (s : State) (ops : List HostOp) : (s.push ops).trace = s.trace := rfl
@[simp] theorem State.push_rxEdge (s : State) (ops : List HostOp) : (s.push ops).rxEdge = s.rxEdge := rfl
@[simp] theorem State.push_sr (s : State) (ops : List HostOp) : (s.push ops).sr = s.sr := rfl
@[simp] theorem State.push_q (s : State) (ops : List HostOp) : (s.push ops).q = s.q := rfl
@[simp] theorem State.push_seconds (s : State) (ops : List HostOp) : (s.push ops).seconds = s.seconds := rfl
@[simp] theorem State.push_minutes (s : State) (ops : List HostOp) : (s.push ops).minutes = s.minutes := rfl
@[simp] theorem State.push_scale (s : State) (ops : List HostOp) : (s.push ops).scale = s.scale := rfl
@[simp] theorem State.push_agenda (s : State) (ops : List HostOp) : (s.push ops).agenda = ops ++ s.agenda := rfl
@[simp] theorem State.push_inputs (s : State) (ops : List HostOp) : (s.push ops).inputs = s.inputs := rfl
@[simp] theorem State.push_draws (s : State) (ops : List HostOp) : (s.push ops).draws = s.draws := rfl

/-! ### `popAgenda` -/

@[simp] theorem State.popAgenda_pattern (s : State) : (s.popAgenda).pattern = s.pattern := rfl
@[simp] theorem State.popAgenda_mask (s : State) : (s.popAgenda).mask = s.mask := rfl
@[simp] theorem State.popAgenda_data (s : State) : (s.popAgenda).data = s.data := rfl
@[simp] theorem State.popAgenda_clock (s : State) : (s.popAgenda).clock = s.clock := rfl
@[simp] theorem State.popAgenda_latch (s : State) : (s.popAgenda).latch = s.latch := rfl
@[simp] theorem State.popAgenda_seg (s : State) : (s.popAgenda).seg = s.seg := rfl
@[simp] theorem State.popAgenda_sel (s : State) : (s.popAgenda).sel = s.sel := rfl
@[simp] theorem State.popAgenda_phase (s : State) : (s.popAgenda).phase = s.phase := rfl
@[simp] theorem State.popAgenda_segOut (s : State) : (s.popAgenda).segOut = s.segOut := rfl
@[simp] theorem State.popAgenda_trace (s : State) : (s.popAgenda).trace = s.trace := rfl
@[simp] theorem State.popAgenda_rxEdge (s : State) : (s.popAgenda).rxEdge = s.rxEdge := rfl
@[simp] theorem State.popAgenda_sr (s : State) : (s.popAgenda).sr = s.sr := rfl
@[simp] theorem State.popAgenda_q (s : State) : (s.popAgenda).q = s.q := rfl
@[simp] theorem State.popAgenda_seconds (s : State) : (s.popAgenda).seconds = s.seconds := rfl
@[simp] theorem State.popAgenda_minutes (s : State) : (s.popAgenda).minutes = s.minutes := rfl
@[simp] theorem State.popAgenda_scale (s : State) : (s.popAgenda).scale = s.scale := rfl
@[simp] theorem State.popAgenda_agenda (s : State) : (s.popAgenda).agenda = s.agenda.tail := rfl
@[simp] theorem State.popAgenda_inputs (s : State) : (s.popAgenda).inputs = s.inputs := rfl
@[simp] theorem State.popAgenda_draws (s : State) : (s.popAgenda).draws = s.draws := rfl

/-! ### `takeMove` -/

@[simp] theorem State.takeMove_pattern (s : State) : (s.takeMove).pattern = s.pattern := rfl
@[simp] theorem State.takeMove_mask (s : State) : (s.takeMove).mask = s.mask := rfl
@[simp] theorem State.takeMove_data (s : State) : (s.takeMove).data = s.data := rfl
@[simp] theorem State.takeMove_clock (s : State) : (s.takeMove).clock = s.clock := rfl
@[simp] theorem State.takeMove_latch (s : State) : (s.takeMove).latch = s.latch := rfl
@[simp] theorem State.takeMove_seg (s : State) : (s.takeMove).seg = s.seg := rfl
@[simp] theorem State.takeMove_sel (s : State) : (s.takeMove).sel = s.sel := rfl
@[simp] theorem State.takeMove_phase (s : State) : (s.takeMove).phase = s.phase := rfl
@[simp] theorem State.takeMove_segOut (s : State) : (s.takeMove).segOut = s.segOut := rfl
@[simp] theorem State.takeMove_trace (s : State) : (s.takeMove).trace = s.trace := rfl
@[simp] theorem State.takeMove_rxEdge (s : State) : (s.takeMove).rxEdge = s.rxEdge := rfl
@[simp] theorem State.takeMove_sr (s : State) : (s.takeMove).sr = s.sr := rfl
@[simp] theorem State.takeMove_q (s : State) : (s.takeMove).q = s.q := rfl
@[simp] theorem State.takeMove_seconds (s : State) : (s.takeMove).seconds = s.seconds := rfl
@[simp] theorem State.takeMove_minutes (s : State) : (s.takeMove).minutes = s.minutes := rfl
@[simp] theorem State.takeMove_scale (s : State) : (s.takeMove).scale = s.scale := rfl
@[simp] theorem State.takeMove_agenda (s : State) : (s.takeMove).agenda = s.agenda := rfl
@[simp] theorem State.takeMove_inputs (s : State) : (s.takeMove).inputs = s.inputs.tail := rfl
@[simp] theorem State.takeMove_draws (s : State) :
    (s.takeMove).draws = if s.inputs.isEmpty then s.draws + 1 else s.draws := rfl

/-! ### The tick's entry and return -/

@[simp] theorem State.takeTick_eq (s : State) : s.takeTick = s.tick := rfl
@[simp] theorem State.returnFromTick_eq (s : State) : s.returnFromTick = s := rfl

end Sys2Proof.Machine
end

