-- ==== Sys2Proof/Laws/Ops.lean ====
section
/-! SUPPORT. What the shared operations do: writes to lines one at a time and in lists, the sequencer, the reads of
the ROMs, the operands. -/

namespace Sys2Proof.Machine

open Sys2Proof

/-! ### Lists of events -/

@[simp] theorem State.emitAll_nil (s : State) : s.emitAll [] = s := rfl

@[simp] theorem State.emitAll_cons (s : State) (e : Event) (es : List Event) :
    s.emitAll (e :: es) = (s.emit e.line e.level).emitAll es := rfl

theorem State.emitAll_append (s : State) (es fs : List Event) :
    s.emitAll (es ++ fs) = (s.emitAll es).emitAll fs := by
  simp [State.emitAll, List.foldl_append]

@[simp] theorem State.emitAll_trace (s : State) (es : List Event) : (s.emitAll es).trace = s.trace ++ es := by
  induction es generalizing s with
  | nil => simp
  | cons e es ih => simp [ih]

/-- A line write touches the lines, the trace and the receiver only: anything that reads none of them is unchanged
by a list of writes. -/
theorem State.emitAll_keeps {α : Type} (read : State → α) (h : ∀ s l v, read (s.emit l v) = read s)
    (s : State) (es : List Event) : read (s.emitAll es) = read s := by
  induction es generalizing s with
  | nil => rfl
  | cons e es ih => rw [State.emitAll_cons, ih, h]

/-! ### The receiver -/

/-- R161: a write to another line shifts nothing. -/
theorem State.srAfter_of_ne_clock (s : State) {l : Line} (v : Bool) (h : l ≠ .clock) : s.srAfter l v = s.sr := by
  simp [State.srAfter, h]

/-- R161: on the active edge of `CLOCK` the level of `DATA` is shifted in at the low end. -/
theorem State.srAfter_clock (s : State) (v : Bool) :
    s.srAfter .clock v =
      if activeEdge s.rxEdge s.clock v = true then s.sr.extractLsb' 0 15 ++ BitVec.ofBool s.data else s.sr := by
  simp [State.srAfter]

/-- R163: a write to another line commits nothing. -/
theorem State.qAfter_of_ne_latch (s : State) {l : Line} (v : Bool) (h : l ≠ .latch) : s.qAfter l v = s.q := by
  simp [State.qAfter, h]

/-- R163: a rising edge of `LATCH` commits all of `SR`. -/
theorem State.qAfter_latch (s : State) (v : Bool) :
    s.qAfter .latch v = if risingEdge s.latch v = true then s.sr else s.q := by
  simp [State.qAfter]

/-- The ticks of an emitted state (spec/20_memory.md R65): TICK and a line write touch disjoint state. -/
theorem State.emit_tick (s : State) (l : Line) (v : Bool) : (s.emit l v).tick = s.tick.emit l v := rfl

/-! ### The sequencer -/

@[simp] theorem Phase.advanced_idle : Phase.advanced .idle = .idle := rfl

theorem Phase.advanced_event_lt (n : Fin 50) (h : n.val + 1 < 50) :
    Phase.advanced (.event n) = .event ⟨n.val + 1, h⟩ := by
  simp [Phase.advanced, Phase.after, h]

@[simp] theorem Phase.advanced_event_last : Phase.advanced (.event 49) = .idle := rfl

/-! ### The operands -/

theorem gateDp_false (b : Byte) : gateDp b false = b := by
  revert b; decide

theorem gateDp_true (b : Byte) : gateDp b true = b &&& 0x7F#8 := by
  revert b; decide

/-- R110: inside 0..9 ENCODE has a byte, the gated ROM entry. -/
theorem encodeByte_of_lt (pattern : Vector Byte 10) (d : Nat) (h : d < 10) (dp : Bool) :
    encodeByte pattern d dp = some (gateDp pattern[d] dp) := by
  simp [encodeByte, romRead, h]

/-- R114: outside 0..9 it has none. -/
theorem encodeByte_of_ge (pattern : Vector Byte 10) (d : Nat) (h : 10 ≤ d) (dp : Bool) :
    encodeByte pattern d dp = none := by
  simp [encodeByte, romRead, h]

/-- R33: index `1 + 3k` is the data write of bit `15 - k`. -/
theorem frameEvent_data (frame : Frame) (n k : Nat) (hk : k < 16) (h : n = 1 + 3 * k) :
    frameEvent frame n = ⟨.data, frame.getLsbD (15 - k)⟩ := by
  have h0 : n ≠ 0 := by omega
  have h49 : n ≠ 49 := by omega
  have hm : (n - 1) % 3 = 0 := by omega
  have hd : (n - 1) / 3 = k := by omega
  simp only [frameEvent, h0, h49, if_false, hm, hd]

/-- R33: index `2 + 3k` is the clock's rise. -/
theorem frameEvent_clockHigh (frame : Frame) (n k : Nat) (_hk : k < 16) (h : n = 2 + 3 * k) :
    frameEvent frame n = ⟨.clock, true⟩ := by
  have h0 : n ≠ 0 := by omega
  have h49 : n ≠ 49 := by omega
  have hm : (n - 1) % 3 = 1 := by omega
  simp only [frameEvent, h0, h49, if_false, hm]

/-- R33: index `3 + 3k` is the clock's fall. -/
theorem frameEvent_clockLow (frame : Frame) (n k : Nat) (hk : k < 16) (h : n = 3 + 3 * k) :
    frameEvent frame n = ⟨.clock, false⟩ := by
  have h0 : n ≠ 0 := by omega
  have h49 : n ≠ 49 := by omega
  have hm : (n - 1) % 3 = 2 := by omega
  simp only [frameEvent, h0, h49, if_false, hm]

/-- R182: the digits of a value are in 0..9. -/
theorem digitAt_lt (value : Nat) (i : Fin 4) : digitAt value i < 10 := by
  match i with
  | 0 => exact Nat.mod_lt _ (by decide)
  | 1 => exact Nat.mod_lt _ (by decide)
  | 2 => exact Nat.mod_lt _ (by decide)
  | 3 => exact Nat.mod_lt _ (by decide)

/-! ### Inputs -/

@[simp] theorem State.nextMove_cons {s : State} {m : Move} {ms : List Move} (h : s.inputs = m :: ms) :
    s.nextMove = m := by
  simp [State.nextMove, h]

/-- The freely drawn moves are ticks and the agents' own steps: no second master, no loss of power. -/
theorem freeMove_cases (n : Nat) : freeMove n = .tick ∨ ∃ pins, freeMove n = .go pins := by
  unfold freeMove
  split
  · exact .inl rfl
  · exact .inr ⟨_, rfl⟩

end Sys2Proof.Machine
end

