-- ==== Sys2Proof/Laws/Exec.lean ====
section
/-! SUPPORT. The meanings as equations, and what performing a word does. -/

namespace Sys2Proof.Machine

open Sys2Proof

theorem exec_encode_of_lt (s : State) (d : Nat) (h : d < 10) (dp : Bool) :
    exec (.encode d dp) s = .next (s.setSegOut (gateDp s.pattern[d] dp)) := by
  simp [exec, execEncode, encodeByte_of_lt _ _ h]

theorem exec_encode_of_ge (s : State) (d : Nat) (h : 10 ≤ d) (dp : Bool) :
    exec (.encode d dp) s = .refused .digitOutOfRange := by
  simp [exec, execEncode, encodeByte_of_ge _ _ h]

/-- An ENCODE that completes had a digit in 0..9 and gave its caller the gated ROM entry. -/
theorem exec_encode_next {d : Nat} {dp : Bool} {s t : State} (h : exec (.encode d dp) s = .next t) :
    ∃ hd : d < 10, t = s.setSegOut (gateDp s.pattern[d] dp) := by
  by_cases hd : d < 10
  · rw [exec_encode_of_lt s d hd] at h
    cases h
    exact ⟨hd, rfl⟩
  · rw [exec_encode_of_ge s d (by omega)] at h
    cases h

theorem exec_transmit_of_idle (s : State) (a b : Byte) (h : s.phase = .idle) :
    exec (.transmit a b) s = .next (s.accept a b) := by
  simp [exec, execTransmit, h]

theorem exec_transmit_of_event (s : State) (a b : Byte) {n : Fin 50} (h : s.phase = .event n) :
    exec (.transmit a b) s = .refused .busBusy := by
  simp [exec, execTransmit, h]

@[simp] theorem exec_dataLo (s : State) : exec .dataLo s = .next (s.emit .data false).advance := rfl
@[simp] theorem exec_dataHi (s : State) : exec .dataHi s = .next (s.emit .data true).advance := rfl
@[simp] theorem exec_clkLo (s : State) : exec .clkLo s = .next (s.emit .clock false).advance := rfl
@[simp] theorem exec_clkHi (s : State) : exec .clkHi s = .next (s.emit .clock true).advance := rfl
@[simp] theorem exec_latchLo (s : State) : exec .latchLo s = .next (s.emit .latch false).advance := rfl
@[simp] theorem exec_latchHi (s : State) : exec .latchHi s = .next (s.emit .latch true).advance := rfl

/-- Everything an instruction can do when it completes: give a byte to ENCODE's caller, accept a TRANSMIT, or write
one line and advance the sequencer. -/
theorem exec_cases {i : Instr} {s t : State} (h : exec i s = .next t) :
    (∃ d dp, d < 10 ∧ i = .encode d dp ∧ ∃ b, encodeByte s.pattern d dp = some b ∧ t = s.setSegOut b) ∨
    (∃ a b, i = .transmit a b ∧ s.phase = .idle ∧ t = s.accept a b) ∨
    (∃ l v, t = (s.emit l v).advance) := by
  cases i with
  | encode d dp =>
    obtain ⟨hd, rfl⟩ := exec_encode_next h
    exact .inl ⟨d, dp, hd, rfl, _, encodeByte_of_lt _ _ hd _, rfl⟩
  | transmit a b =>
    cases hp : s.phase with
    | idle =>
      rw [exec_transmit_of_idle s a b hp] at h
      cases h
      exact .inr (.inl ⟨a, b, rfl, rfl, rfl⟩)
    | event n =>
      rw [exec_transmit_of_event s a b hp] at h
      cases h
  | dataLo => cases h; exact .inr (.inr ⟨.data, false, rfl⟩)
  | dataHi => cases h; exact .inr (.inr ⟨.data, true, rfl⟩)
  | clkLo => cases h; exact .inr (.inr ⟨.clock, false, rfl⟩)
  | clkHi => cases h; exact .inr (.inr ⟨.clock, true, rfl⟩)
  | latchLo => cases h; exact .inr (.inr ⟨.latch, false, rfl⟩)
  | latchHi => cases h; exact .inr (.inr ⟨.latch, true, rfl⟩)

/-- R89, R139: performing the code of an event is its micro-operation. -/
theorem perform_eventCode (e : Event) (s : State) :
    perform (.event e.code) s = .next (s.emit e.line e.level).advance := by
  obtain ⟨l, v⟩ := e
  cases l <;> cases v <;> rfl

/-- R139, R140: one serializer step emits the event that `PHASE` selects and advances. -/
theorem serializerStep_eq (n : Fin 50) (s : State) :
    serializerStep n s =
      .next (s.emit (frameEvent s.frame n).line (frameEvent s.frame n).level).advance :=
  perform_eventCode _ _

theorem perform_ok {e : Encoded} {i : Instr} (h : decode e = .ok i) (s : State) : perform e s = exec i s := by
  simp [perform, h]

theorem perform_error {e : Encoded} (h : decode e = .error .reservedEncoding) (s : State) :
    perform e s = .refused .reservedEncoding := by
  simp [perform, h]

/-- A word that is performed to a next state spells an instruction. -/
theorem perform_next {e : Encoded} {s t : State} (h : perform e s = .next t) :
    ∃ i, decode e = .ok i ∧ exec i s = .next t := by
  cases hd : decode e with
  | ok i => exact ⟨i, rfl, by rwa [perform_ok hd] at h⟩
  | error r => cases r; rw [perform_error hd] at h; cases h

end Sys2Proof.Machine
end

