-- ==== Sys2Proof/Laws/Step.lean ====
section
/-! SUPPORT. What one step of the system can do, said once. -/

namespace Sys2Proof.Machine

open Sys2Proof

theorem step_tick {s : State} (h : s.nextMove = .tick) : step s = .next s.takeMove.tick := by
  simp [step, stepMove, h]

theorem step_strobe {s : State} {w : CommandWord} (h : s.nextMove = .strobe w) :
    step s = perform (.command w) s.takeMove := by
  simp [step, stepMove, h]

theorem step_powerCycle {s : State} {p : PowerOn} (h : s.nextMove = .powerCycle p) :
    step s = .next (s.takeMove.powerOn p) := by
  simp [step, stepMove, h]

theorem step_serializer {s : State} {pins : Pins} {n : Fin 50} (h : s.nextMove = .go pins)
    (hp : s.phase = .event n) :
    step s = .next (s.takeMove.emit (frameEvent s.frame n).line (frameEvent s.frame n).level).advance := by
  simp only [step, stepMove, h, State.takeMove_phase, hp]
  exact serializerStep_eq n s.takeMove

theorem step_host {s : State} {pins : Pins} (h : s.nextMove = .go pins) (hp : s.phase = .idle) :
    step s = hostStep pins s.takeMove := by
  simp [step, stepMove, h, hp]

/-- The one inversion lemma of `step`. -/
theorem step_cases {s t : State} (h : step s = .next t) :
    (s.nextMove = .tick ∧ t = s.takeMove.tick) ∨
    (∃ w i, s.nextMove = .strobe w ∧ decodeCommand w = .ok i ∧ exec i s.takeMove = .next t) ∨
    (∃ p, s.nextMove = .powerCycle p ∧ t = s.takeMove.powerOn p) ∨
    (∃ pins n, s.nextMove = .go pins ∧ s.phase = .event n ∧
      t = (s.takeMove.emit (frameEvent s.frame n).line (frameEvent s.frame n).level).advance) ∨
    (∃ pins, s.nextMove = .go pins ∧ s.phase = .idle ∧ hostStep pins s.takeMove = .next t) := by
  cases hm : s.nextMove with
  | tick =>
    rw [step_tick hm] at h
    cases h
    exact .inl ⟨rfl, rfl⟩
  | strobe w =>
    rw [step_strobe hm] at h
    obtain ⟨i, hd, he⟩ := perform_next h
    exact .inr (.inl ⟨w, i, rfl, hd, he⟩)
  | powerCycle p =>
    rw [step_powerCycle hm] at h
    cases h
    exact .inr (.inr (.inl ⟨p, rfl, rfl⟩))
  | go pins =>
    cases hp : s.phase with
    | event n =>
      rw [step_serializer hm hp] at h
      cases h
      exact .inr (.inr (.inr (.inl ⟨pins, n, rfl, rfl, rfl⟩)))
    | idle =>
      rw [step_host hm hp] at h
      exact .inr (.inr (.inr (.inr ⟨pins, rfl, rfl, h⟩)))

end Sys2Proof.Machine
end

