-- ==== Sys2Proof/Laws/Host.lean ====
section
/-! SUPPORT. What a step of the main loop can do, and the words the main loop presents. -/

namespace Sys2Proof.Machine

open Sys2Proof

/-! ### Command words -/

/-- A command word spells ENCODE or TRANSMIT, never a micro-operation: the host has no way to issue one. -/
theorem decodeCommand_cases {w : CommandWord} {i : Instr} (h : decodeCommand w = .ok i) :
    (∃ d dp, i = .encode d dp) ∨ ∃ a b, i = .transmit a b := by
  unfold decodeCommand at h
  split at h
  · cases h; exact .inr ⟨_, _, rfl⟩
  · split at h
    · cases h; exact .inl ⟨_, _, rfl⟩
    · cases h

/-- The format-E word of a digit that fits the port decodes to its ENCODE (R87). -/
theorem decodeCommand_encodeE (d : Nat) (h : d < 16) (dp : Bool) :
    decodeCommand (encodeE d dp) = .ok (.encode d dp) := by
  have key : ∀ (d : Fin 16) (dp : Bool), decodeCommand (encodeE d.val dp) = .ok (.encode d.val dp) := by decide
  exact key ⟨d, h⟩ dp

theorem encodeT_op (a b : Byte) : encodeT a b &&& 0x10000#17 = 0x10000#17 := by
  ext i hi
  simp only [encodeT, BitVec.getElem_and, BitVec.getElem_append]
  by_cases h8 : i < 8
  · interval_cases i <;> simp
  · by_cases h16 : i < 16
    · interval_cases i <;> simp_all
    · have : i = 16 := by omega
      subst this
      simp

theorem encodeT_segments (a b : Byte) : (encodeT a b).extractLsb' 8 8 = a := by
  ext i hi
  simp only [encodeT, BitVec.getElem_extractLsb', BitVec.getLsbD_append]
  have h1 : ¬ 8 + i < 8 := by omega
  have h2 : i < 8 := hi
  simp [h2, BitVec.getLsbD_eq_getElem]

theorem encodeT_digitSelect (a b : Byte) : (encodeT a b).extractLsb' 0 8 = b := by
  ext i hi
  simp only [encodeT, BitVec.getElem_extractLsb', BitVec.getLsbD_append]
  have h2 : i < 8 := hi
  simp [h2, BitVec.getLsbD_eq_getElem]

/-- Every format-T word decodes to its TRANSMIT (R88, R148). -/
theorem decodeCommand_encodeT (a b : Byte) : decodeCommand (encodeT a b) = .ok (.transmit a b) := by
  simp [decodeCommand, encodeT_op, encodeT_segments, encodeT_digitSelect]

/-! ### The main loop's steps -/

/-- SHOWDIGIT's step for a digit the spec gives a pattern for (R183). -/
theorem hostShowDigit_of_lt (i : Fin 4) (d : Nat) (h : d < 10) (dp : Bool) (s : State) :
    hostShowDigit i d dp s =
      .next ((s.setSegOut (gateDp s.pattern[d] dp)).push
        [.command (encodeT (gateDp s.pattern[d] dp) s.mask[i]), .wait 2]) := by
  simp [hostShowDigit, exec_encode_of_lt s d h]

/-- Every other digit is refused as its ENCODE is (R114), 16 and more among them. -/
theorem hostShowDigit_of_ge (i : Fin 4) (d : Nat) (h : 10 ≤ d) (dp : Bool) (s : State) :
    hostShowDigit i d dp s = .refused .digitOutOfRange := by
  simp [hostShowDigit, exec_encode_of_ge s d h]

/-- A SHOWDIGIT that completes had a digit in 0..9. -/
theorem hostShowDigit_next {i : Fin 4} {d : Nat} {dp : Bool} {s t : State}
    (h : hostShowDigit i d dp s = .next t) :
    ∃ hd : d < 10, t = (s.setSegOut (gateDp s.pattern[d] dp)).push
      [.command (encodeT (gateDp s.pattern[d] dp) s.mask[i]), .wait 2] := by
  by_cases hd : d < 10
  · rw [hostShowDigit_of_lt i d hd] at h
    cases h
    exact ⟨hd, rfl⟩
  · rw [hostShowDigit_of_ge i d (by omega)] at h
    cases h

/-- What a performed command word changes: the caller's byte, or the operand registers and the sequencer. -/
theorem perform_command_cases {w : CommandWord} {s t : State} (h : perform (.command w) s = .next t) :
    (∃ b, t = s.setSegOut b) ∨ ∃ a b, s.phase = .idle ∧ t = s.accept a b := by
  obtain ⟨i, hd, he⟩ := perform_next h
  obtain ⟨d, dp, rfl⟩ | ⟨a, b, rfl⟩ := decodeCommand_cases hd
  · obtain ⟨_, rfl⟩ := exec_encode_next he
    exact .inl ⟨_, rfl⟩
  · cases hp : s.phase with
    | idle =>
      rw [exec_transmit_of_idle s a b hp] at he
      cases he
      exact .inr ⟨a, b, rfl, rfl⟩
    | event n =>
      rw [exec_transmit_of_event s a b hp] at he
      cases he

/-- The block and the receiver as a main-loop step leaves them: no line, no event, no shift, no commit. -/
structure SameOutputs (s t : State) : Prop where
  pattern : t.pattern = s.pattern
  mask : t.mask = s.mask
  data : t.data = s.data
  clock : t.clock = s.clock
  latch : t.latch = s.latch
  trace : t.trace = s.trace
  rxEdge : t.rxEdge = s.rxEdge
  sr : t.sr = s.sr
  q : t.q = s.q
  scale : t.scale = s.scale
  inputs : t.inputs = s.inputs
  draws : t.draws = s.draws

theorem SameOutputs.refl (s : State) : SameOutputs s s := ⟨rfl, rfl, rfl, rfl, rfl, rfl, rfl, rfl, rfl, rfl, rfl, rfl⟩

theorem SameOutputs.trans {s t u : State} (h : SameOutputs s t) (k : SameOutputs t u) : SameOutputs s u where
  pattern := k.pattern.trans h.pattern
  mask := k.mask.trans h.mask
  data := k.data.trans h.data
  clock := k.clock.trans h.clock
  latch := k.latch.trans h.latch
  trace := k.trace.trans h.trace
  rxEdge := k.rxEdge.trans h.rxEdge
  sr := k.sr.trans h.sr
  q := k.q.trans h.q
  scale := k.scale.trans h.scale
  inputs := k.inputs.trans h.inputs
  draws := k.draws.trans h.draws

theorem SameOutputs.push {s t : State} (h : SameOutputs s t) (ops : List HostOp) : SameOutputs s (t.push ops) :=
  h.trans ⟨rfl, rfl, rfl, rfl, rfl, rfl, rfl, rfl, rfl, rfl, rfl, rfl⟩

theorem sameOutputs_clearSeconds (s : State) : SameOutputs s s.clearSeconds :=
  ⟨rfl, rfl, rfl, rfl, rfl, rfl, rfl, rfl, rfl, rfl, rfl, rfl⟩

theorem sameOutputs_clearMinutes (s : State) : SameOutputs s s.clearMinutes :=
  ⟨rfl, rfl, rfl, rfl, rfl, rfl, rfl, rfl, rfl, rfl, rfl, rfl⟩

theorem sameOutputs_setSegOut (s : State) (b : Byte) : SameOutputs s (s.setSegOut b) :=
  ⟨rfl, rfl, rfl, rfl, rfl, rfl, rfl, rfl, rfl, rfl, rfl, rfl⟩

theorem sameOutputs_popAgenda (s : State) : SameOutputs s s.popAgenda :=
  ⟨rfl, rfl, rfl, rfl, rfl, rfl, rfl, rfl, rfl, rfl, rfl, rfl⟩

theorem sameOutputs_perform_command {w : CommandWord} {s t : State} (h : perform (.command w) s = .next t) :
    SameOutputs s t := by
  obtain ⟨b, rfl⟩ | ⟨a, b, -, rfl⟩ := perform_command_cases h
  · exact sameOutputs_setSegOut s b
  · exact ⟨rfl, rfl, rfl, rfl, rfl, rfl, rfl, rfl, rfl, rfl, rfl, rfl⟩

theorem sameOutputs_hostOp {op : HostOp} {pins : Pins} {s t : State} (h : hostOp op pins s = .next t) :
    SameOutputs s t := by
  cases op with
  | pollReset => cases h; exact (SameOutputs.refl s).push _
  | pollMode => cases h; exact (SameOutputs.refl s).push _
  | clkReset =>
    cases h
    split
    · exact (sameOutputs_clearMinutes s).push _
    · exact (sameOutputs_clearSeconds s).push _
  | clearSeconds => cases h; exact sameOutputs_clearSeconds s
  | clearMinutes => cases h; exact sameOutputs_clearMinutes s
  | sampleAnalog => cases h; exact (SameOutputs.refl s).push _
  | readTime => cases h; exact (SameOutputs.refl s).push _
  | readSeconds m => cases h; exact (SameOutputs.refl s).push _
  | readMinutes sec => cases h; exact (SameOutputs.refl s).push _
  | render value showPoint pos =>
    cases value with
    | ofNat v => cases h; exact (SameOutputs.refl s).push _
    | negSucc v => cases h
  | showDigit i d dp =>
    obtain ⟨_, rfl⟩ := hostShowDigit_next h
    exact (sameOutputs_setSegOut s _).push _
  | wait ms => cases h; exact SameOutputs.refl _
  | command w => exact sameOutputs_perform_command h

/-- A main-loop step writes no line, emits no event and moves nothing in the receiver. -/
theorem sameOutputs_hostStep {pins : Pins} {s t : State} (h : hostStep pins s = .next t) : SameOutputs s t := by
  unfold hostStep at h
  split at h
  · cases h; exact SameOutputs.refl _
  · exact (sameOutputs_popAgenda s).trans (sameOutputs_hostOp h)

end Sys2Proof.Machine
end

