-- ==== Sys2Proof/Laws/PerInstr.lean ====
section
/-! SUPPORT. Per instruction: the encoder's word meets the instruction's row of spec/opcode_table.json, that is the
row's width, mask and match. The masks and matches are copied from the table. -/

namespace Sys2Proof.Laws.TableRow

open Sys2Proof Sys2Proof.Machine

/-- A command word (17 bits) meets a row. -/
def meetsCommandRow (mask matchBits : CommandWord) : Encoded → Prop
  | .command w => w &&& mask = matchBits
  | .event _ => False

/-- An event code (3 bits) meets a row. -/
def meetsEventRow (mask matchBits : EventCode) : Encoded → Prop
  | .command _ => False
  | .event c => c &&& mask = matchBits

/-- The word of a well-formed instruction meets the instruction's row. -/
def Statement (i : Instr) : Prop :=
  i.wellFormed = true →
  match i with
  | .encode _ _ => meetsCommandRow 0x1FFE0#17 0x00000#17 (encode i)
  | .transmit _ _ => meetsCommandRow 0x10000#17 0x10000#17 (encode i)
  | .dataLo => meetsEventRow 0x7#3 0x0#3 (encode i)
  | .dataHi => meetsEventRow 0x7#3 0x1#3 (encode i)
  | .clkLo => meetsEventRow 0x7#3 0x2#3 (encode i)
  | .clkHi => meetsEventRow 0x7#3 0x3#3 (encode i)
  | .latchLo => meetsEventRow 0x7#3 0x4#3 (encode i)
  | .latchHi => meetsEventRow 0x7#3 0x5#3 (encode i)

theorem encode (digit : Nat) (dp : Bool) : Statement (.encode digit dp) := by
  intro h
  have hd : digit < 16 := by simpa [Instr.wellFormed] using h
  have key : ∀ (d : Fin 16) (dp : Bool), encodeE d.val dp &&& 0x1FFE0#17 = 0#17 := by decide
  exact key ⟨digit, hd⟩ dp

theorem transmit (segments digitSelect : Byte) : Statement (.transmit segments digitSelect) :=
  fun _ => encodeT_op segments digitSelect

theorem dataLo : Statement .dataLo := fun _ => rfl
theorem dataHi : Statement .dataHi := fun _ => rfl
theorem clkLo : Statement .clkLo := fun _ => rfl
theorem clkHi : Statement .clkHi := fun _ => rfl
theorem latchLo : Statement .latchLo := fun _ => rfl
theorem latchHi : Statement .latchHi := fun _ => rfl

end Sys2Proof.Laws.TableRow
end

