-- ==== Sys2Proof/Laws/Run.lean ====
section
/-! SUPPORT. Runs of several steps, and the serializer's steps of a frame put together. -/

namespace Sys2Proof.Machine

open Sys2Proof

@[simp] theorem runSteps_zero (s : State) : runSteps 0 s = .next s := rfl

theorem runSteps_succ_eq (k : Nat) (s : State) :
    runSteps (k + 1) s =
      match step s with
      | .next t => runSteps k t
      | .fault r => .fault r
      | .refused r => .refused r := rfl

/-- One step of the host's run, for any machine. -/
theorem core_run_succ (M : Host.Core) (k : Nat) (s : M.State) :
    M.run (k + 1) s =
      match M.step s with
      | .next t => M.run k t
      | .fault r => .fault r
      | .refused r => .refused r := by
  rfl

/-- The same run as the host's. -/
theorem runSteps_eq_run (k : Nat) (s : State) : runSteps k s = Host.Core.run Sys2Proof.core k s := by
  induction k generalizing s with
  | zero => rfl
  | succ k ih =>
    rw [runSteps_succ_eq]
    have e := core_run_succ Sys2Proof.core k s
    cases h : step s with
    | next t =>
      rw [show Sys2Proof.core.step s = .next t from h] at e
      exact (ih t).trans e.symm
    | fault r => cases r
    | refused r =>
      rw [show Sys2Proof.core.step s = .refused r from h] at e
      exact e.symm

/-- A run whose first step completes. -/
theorem runSteps_succ {s t : State} (k : Nat) (h : step s = .next t) : runSteps (k + 1) s = runSteps k t := by
  rw [runSteps_succ_eq, h]

/-- Runs compose. -/
theorem runSteps_add {s t : State} (j k : Nat) (h : runSteps j s = .next t) :
    runSteps (j + k) s = runSteps k t := by
  induction j generalizing s with
  | zero =>
    cases h
    rw [Nat.zero_add]
  | succ j ih =>
    rw [Nat.add_right_comm, runSteps_succ_eq]
    rw [runSteps_succ_eq] at h
    cases hs : step s with
    | next u =>
      rw [hs] at h
      exact ih h
    | fault r =>
      rw [hs] at h
      cases h
    | refused r =>
      rw [hs] at h
      cases h

/-- The events still to come at index `n` of a frame (R33). -/
def eventsFrom (frame : Frame) (n : Nat) : List Event := (List.range' n (50 - n)).map (frameEvent frame)

/-- R142 for the events: the pseudocode's list is the table's, in order. -/
theorem eventsFrom_zero (frame : Frame) : eventsFrom frame 0 = frameEvents frame := rfl

theorem eventsFrom_succ (frame : Frame) (n : Nat) (h : n < 50) :
    eventsFrom frame n = frameEvent frame n :: eventsFrom frame (n + 1) := by
  unfold eventsFrom
  obtain ⟨m, hm⟩ : ∃ m, 50 - n = m + 1 := ⟨49 - n, by omega⟩
  have hm' : 50 - (n + 1) = m := by omega
  rw [hm, hm', List.range'_succ]
  rfl

theorem eventsFrom_last (frame : Frame) : eventsFrom frame 50 = [] := rfl

end Sys2Proof.Machine
end

