-- ==== Sys2Proof/Laws/Words.lean ====
section
/-! SUPPORT. The words bit by bit: the frame, the format-E word, the format-T word. -/

namespace Sys2Proof.Machine

open Sys2Proof

/-- R84: bit `k` of a frame. -/
theorem frameOf_getLsbD (a b : Byte) (k : Nat) :
    (frameOf a b).getLsbD k = if k < 8 then b.getLsbD k else a.getLsbD (k - 8) := by
  show BitVec.getLsbD (a ++ b : BitVec (8 + 8)) k = _
  rw [BitVec.getLsbD_append]

/-- R88: bit `k` of a format-T word. -/
theorem encodeT_getLsbD (a b : Byte) (k : Nat) :
    (encodeT a b).getLsbD k =
      if k < 8 then b.getLsbD k else if k < 16 then a.getLsbD (k - 8) else decide (k = 16) := by
  show BitVec.getLsbD (1#1 ++ a ++ b : BitVec (1 + 8 + 8)) k = _
  rw [BitVec.getLsbD_append, BitVec.getLsbD_append]
  split
  · rfl
  · split
    · rw [if_pos (by omega)]
    · rw [if_neg (by omega)]
      by_cases h : k = 16
      · subst h; rfl
      · rw [BitVec.getLsbD_of_ge _ _ (by omega)]
        simp [h]

/-- R87: bit `k` of a format-E word. -/
theorem encodeE_getLsbD (d : Nat) (dp : Bool) (k : Nat) :
    (encodeE d dp).getLsbD k = if k < 4 then d.testBit k else dp && decide (k = 4) := by
  show BitVec.getLsbD (0#12 ++ BitVec.ofBool dp ++ BitVec.ofNat 4 d : BitVec (12 + 1 + 4)) k = _
  rw [BitVec.getLsbD_append, BitVec.getLsbD_append]
  split
  · rename_i h
    rw [BitVec.getLsbD_ofNat]
    simp [h]
  · split
    · have h : k = 4 := by omega
      subst h
      simp
    · have h : k ≠ 4 := by omega
      simp [h]

end Sys2Proof.Machine
end

