-- ==== Sys2Proof/Tests/Slice0.lean ====
section
/-! SUPPORT. Own tests: the decoder on words written from the spec's encodings, one step each on small states, and a
state that meets the hypotheses of every statement that has any. Every expected value is transcribed from
spec/95_test_vectors.md (E, W, T, X, M, K, V, A) or from the rule a test names. -/

namespace Sys2Proof.Machine.Tests

open Sys2Proof Sys2Proof.Machine

/-- The outcome is a next state with property `p`. -/
def nextWith (o : Host.Outcome State Fault Refusal) (p : State → Bool) : Bool :=
  match o with
  | .next t => p t
  | .fault _ => false
  | .refused _ => false

/-- The outcome is the refusal `r`. -/
def refusedWith (o : Host.Outcome State Fault Refusal) (r : Refusal) : Bool :=
  match o with
  | .next _ => false
  | .fault _ => false
  | .refused x => x == r

/-- Decoding answers the instruction `i`. -/
def decodesTo (e : Encoded) (i : Instr) : Bool :=
  match decode e with
  | .ok j => j == i
  | .error _ => false

/-- Decoding refuses the word. -/
def rejects (e : Encoded) : Bool :=
  match decode e with
  | .ok _ => false
  | .error .reservedEncoding => true

/-- The frame of T1 at index `n`, in the middle of its run: latched low, `CLOCK` as `clock`. -/
def inFrame (n : Fin 50) (clock data : Bool) : State :=
  { State.reset with
    phase := .event n, seg := 0x99, sel := 0x04, clock := clock, data := data, latch := false
    trace := [⟨.latch, false⟩], inputs := [.go Pins.quiet] }

/-- The idle block between frames, the main loop about to perform `ops`. -/
def atHost (ops : List HostOp) : State := { State.reset with agenda := ops, inputs := [.go Pins.quiet] }

/-- The idle block with a move listed. -/
def atMove (m : Move) : State := { State.reset with inputs := [m] }

/-- Inputs with the reset button pressed (its level reads 0, spec/44_host_clock_and_arbiter.md R221). -/
def resetPressed : Pins := { Pins.quiet with resetLevel := false }

/-- Inputs with the mode button pressed and the sample 0.5 (A2). -/
def modePressed : Pins := { Pins.quiet with modeLevel := false, sample := ⟨1, 1⟩ }

/-! ### Well-formedness -/

/-- The digit port has 4 bits (R110): 16 cannot be presented. -/
theorem test_wellFormed_refuses_digit16 : (Instr.encode 16 false).wellFormed = false := by decide

/-- Digits 0 and 15 can (R25). -/
theorem test_wellFormed_accepts : (Instr.encode 0 true).wellFormed = true ∧ (Instr.encode 15 true).wellFormed = true := by
  decide

/-- The commands the host is trusted with are refused when ill formed (R283): a digit 10, a negative value, a reserved word. -/
theorem test_hostOp_ok_refuses :
    (HostOp.showDigit 0 10 false).ok = false ∧ (HostOp.render (-1) false 0).ok = false ∧
      (HostOp.command 0x00020#17).ok = false ∧ (HostOp.command 0x0000A#17).ok = false := by decide

/-! ### Decoding -/

/-- W1, W2, W3. -/
theorem test_decode_encode :
    decodesTo (.command 0b00000000000000100#17) (.encode 4 false) = true ∧
      decodesTo (.command 0b00000000000010100#17) (.encode 4 true) = true ∧
      decodesTo (.command 0b00000000000011111#17) (.encode 15 true) = true := by decide

/-- W6, W7, W8. -/
theorem test_decode_transmit :
    decodesTo (.command 0b10000000000000000#17) (.transmit 0x00 0x00) = true ∧
      decodesTo (.command 0b11001100100000100#17) (.transmit 0x99 0x04) = true ∧
      decodesTo (.command 0b11111111111111111#17) (.transmit 0xFF 0xFF) = true := by decide

/-- The table of R89: `L1 L0 V`, `DATA` 00, `CLOCK` 01, `LATCH` 10. -/
theorem test_decode_events :
    decodesTo (.event 0b000#3) .dataLo = true ∧ decodesTo (.event 0b001#3) .dataHi = true ∧
      decodesTo (.event 0b010#3) .clkLo = true ∧ decodesTo (.event 0b011#3) .clkHi = true ∧
      decodesTo (.event 0b100#3) .latchLo = true ∧ decodesTo (.event 0b101#3) .latchHi = true := by decide

/-- W4, W5, W9, and the lowest and highest reserved format-E words. -/
theorem test_decode_reserved :
    rejects (.command 0x00020#17) = true ∧ rejects (.command 0x0FFE4#17) = true ∧
      rejects (.command 0x0FFFF#17) = true ∧ rejects (.event 6#3) = true ∧ rejects (.event 7#3) = true := by decide

/-- The rows of spec/opcode_table.json: 17 bits and 3 bits; a bit above the row's is no word. -/
theorem test_decodeTableWord :
    decodeTableWord 17 0x19904 = some (.transmit 0x99 0x04) ∧ decodeTableWord 24 0x00014 = some (.encode 4 true) ∧
      decodeTableWord 3 5 = some .latchHi ∧ decodeTableWord 8 3 = some .clkHi ∧
      decodeTableWord 24 0x20000 = none ∧ decodeTableWord 8 8 = none := by decide

/-! ### ENCODE and TRANSMIT -/

/-- E5, E15. -/
theorem test_encode_4 :
    nextWith (exec (.encode 4 false) State.reset) (fun t => t.segOut == 0x99#8) = true ∧
      nextWith (exec (.encode 4 true) State.reset) (fun t => t.segOut == 0x19#8) = true := by decide

/-- E21, E26: no byte. -/
theorem test_encode_out_of_range :
    refusedWith (exec (.encode 10 false) State.reset) .digitOutOfRange = true ∧
      refusedWith (exec (.encode 15 true) State.reset) .digitOutOfRange = true := by decide

/-- T1's acceptance: the operands in their registers, `PHASE = 0`, no event (R138). -/
theorem test_transmit_accepts :
    nextWith (step (State.reset.withFetchWord 17 0x19904)) (fun t =>
      t.seg == 0x99#8 && t.sel == 0x04#8 && t.phase == .event 0 && t.trace == []) = true := by decide

/-- T7. -/
theorem test_transmit_busy : refusedWith (exec (.transmit 0xC0 0x01) (inFrame 10 true true)) .busBusy = true := by decide

/-! ### The micro-operations -/

/-- T1, `k = 1`: the bit 0. -/
theorem test_dataLo : nextWith (step (inFrame 4 false true)) (fun t =>
    !t.data && t.trace == [⟨.latch, false⟩, ⟨.data, false⟩] && t.phase == .event 5 && t.sr == 0#16) = true := by decide

/-- T1, `k = 0`: the bit 1; a data write shifts nothing (R161). -/
theorem test_dataHi : nextWith (step (inFrame 1 false false)) (fun t =>
    t.data && t.trace == [⟨.latch, false⟩, ⟨.data, true⟩] && t.phase == .event 2 && t.sr == 0#16) = true := by decide

/-- R161: on the rising edge the level of `DATA` enters at the low end; X2: none when the clock was high. -/
theorem test_clkHi_shifts :
    nextWith (step { inFrame 5 false true with sr := 0x8001 }) (fun t => t.clock && t.sr == 0x0003#16) = true ∧
      nextWith (step { inFrame 2 true true with sr := 0x8001 }) (fun t => t.clock && t.sr == 0x8001#16) = true := by decide

/-- R161: a rising-edge receiver ignores the falling edge; X3: a falling-edge receiver shifts on it. -/
theorem test_clkLo :
    nextWith (step { inFrame 6 true true with sr := 0x8001 }) (fun t => !t.clock && t.sr == 0x8001#16) = true ∧
      nextWith (step { inFrame 6 true true with sr := 0x8001, rxEdge := .falling }) (fun t => t.sr == 0x0003#16) = true := by
  decide

/-- R163: the receiver does nothing on a falling latch edge. -/
theorem test_latchLo : nextWith (step { inFrame 0 false false with latch := true, sr := 0x9904 }) (fun t =>
    !t.latch && t.q == 0#16 && t.phase == .event 1) = true := by decide

/-- T1's last event: `Q <- SR`, the block idle; a redundant write of 1 commits nothing (R11). -/
theorem test_latchHi :
    nextWith (step { inFrame 49 false false with sr := 0x9904 }) (fun t =>
      t.latch && t.q == 0x9904#16 && t.phase == .idle) = true ∧
      nextWith (exec .latchHi { inFrame 49 false false with sr := 0x9904, latch := true }) (fun t =>
        t.q == 0#16) = true := by decide

/-- T6, all four rows, on the frame of T1. -/
theorem test_edges :
    countEdges .rising .clock false (frameEvents 0x9904) = 16 ∧ countEdges .rising .clock true (frameEvents 0x9904) = 15 ∧
      countEdges .falling .clock true (frameEvents 0x9904) = 16 ∧
      countEdges .falling .latch true (frameEvents 0x9904) = 1 ∧
      countEdges .falling .latch false (frameEvents 0x9904) = 0 := by decide

/-- T1's event string. -/
theorem test_frame_string :
    (frameEvents 0x9904).map (fun e => e.code.toNat) =
      [4] ++ [1, 3, 2, 0, 3, 2, 0, 3, 2, 1, 3, 2] ++ [1, 3, 2, 0, 3, 2, 0, 3, 2, 1, 3, 2] ++
        [0, 3, 2, 0, 3, 2, 0, 3, 2, 0, 3, 2] ++ [0, 3, 2, 1, 3, 2, 0, 3, 2, 0, 3, 2] ++ [5] := by decide

/-! ### Display, RENDER, clock, main loop -/

/-- X1, X5. -/
theorem test_display_4 :
    shownDigit State.reset.pattern 0x9904 = some 4 ∧ shownPoint 0x9904 = false ∧
      shownPositions State.reset.mask 0x9904 = [2] ∧ shownPoint 0x1904 = true ∧
      shownDigit State.reset.pattern 0x1904 = some 4 := by decide

/-- X6. -/
theorem test_display_odd_selects :
    shownPositions State.reset.mask 0x00FF = [0, 1, 2, 3] ∧ shownDigit State.reset.pattern 0x00FF = some 8 ∧
      shownPositions State.reset.mask 0xFF00 = [] ∧ shownDigit State.reset.pattern 0xBF01 = none := by decide

/-- M1, M3, M11. -/
theorem test_render_frames :
    renderFrames State.reset.pattern State.reset.mask 245 true 1 = [0xC001, 0x2402, 0x9904, 0x9208] ∧
      renderFrames State.reset.pattern State.reset.mask 12345 true 1 = [0xA401, 0x3002, 0x9904, 0x9208] ∧
      renderFrames State.reset.pattern State.reset.mask 8888 true (-1) = [0x8001, 0x8002, 0x8004, 0x8008] := by decide

/-- M1 as a step, and M14. -/
theorem test_render_step :
    nextWith (step (atHost [.render 245 true 1])) (fun t => t.agenda ==
      [.showDigit 0 0 false, .showDigit 1 2 true, .showDigit 2 4 false, .showDigit 3 5 false]) = true ∧
      refusedWith (step (atHost [.render (-1) false 0])) .negativeValue = true := by decide

/-- P2's second SHOWDIGIT: s1 = 0x24, then the word 0x12402, then WAIT 2. -/
theorem test_showDigit_step : nextWith (step (atHost [.showDigit 1 2 true])) (fun t =>
    t.segOut == 0x24#8 && t.agenda == [.command 0x12402#17, .wait 2]) = true := by decide

/-- R114, R96: a digit outside 0..9 is no digit of SHOWDIGIT either, not even one whose low four bits are a digit. -/
theorem test_showDigit_out_of_range :
    refusedWith (step (atHost [.showDigit 0 10 false])) .digitOutOfRange = true ∧
      refusedWith (step (atHost [.showDigit 0 16 false])) .digitOutOfRange = true := by decide

/-- K8, K13, K12. -/
theorem test_tick :
    nextWith (step { atMove .tick with minutes := 99, seconds := 59 }) (fun t => t.minutes == 0 && t.seconds == 0) = true ∧
      nextWith (step { atMove .tick with minutes := 2, seconds := 59 }) (fun t => t.minutes == 3 && t.seconds == 0) = true ∧
      nextWith (step { atMove .tick with minutes := 2, seconds := 45 }) (fun t => t.minutes == 2 && t.seconds == 46) = true := by
  decide

/-- A4's first read, in both orders. -/
theorem test_first_read :
    nextWith (step { atHost [.readTime] with minutes := 2, seconds := 59 }) (fun t => t.agenda == [.readSeconds 2]) = true ∧
      nextWith (step { State.reset with
        agenda := [.readTime], minutes := 2, seconds := 59
        inputs := [.go { Pins.quiet with minutesFirst := false }] }) (fun t => t.agenda == [.readMinutes 59]) = true := by
  decide

/-- A4's second read: 200 and 359, the counters at (3, 0). -/
theorem test_second_read :
    nextWith (step { atHost [.readSeconds 2] with minutes := 3, seconds := 0 }) (fun t =>
      t.agenda == [.render 200 true 1]) = true ∧
      nextWith (step { atHost [.readMinutes 59] with minutes := 3, seconds := 0 }) (fun t =>
        t.agenda == [.render 359 true 1]) = true := by decide

/-- A8's two writes: `seconds` first. -/
theorem test_clkReset :
    nextWith (step { State.reset with
      agenda := [.clkReset], minutes := 5, seconds := 30
      inputs := [.go { Pins.quiet with minutesFirst := false }] }) (fun t =>
        t.minutes == 5 && t.seconds == 0 && t.agenda == [.clearMinutes]) = true ∧
      nextWith (step { atHost [.clearMinutes] with minutes := 5, seconds := 1 }) (fun t =>
        t.minutes == 0 && t.seconds == 1) = true := by decide

/-- A7 and A2: the two buttons, asserted at level 0. -/
theorem test_buttons :
    nextWith (step { atMove (.go resetPressed) with agenda := [.pollReset] }) (fun t =>
      t.agenda == [.clkReset, .wait 200, .pollMode]) = true ∧
      nextWith (step { atMove (.go modePressed) with agenda := [.pollMode] }) (fun t =>
        t.agenda == [.sampleAnalog, .pollReset]) = true ∧
      nextWith (step { atMove (.go modePressed) with agenda := [.sampleAnalog] }) (fun t =>
        t.agenda == [.render 1650 true 0]) = true := by decide

/-- V2, V4, V6 with their four columns. -/
theorem test_scale :
    [ScaleArith.exact, .binary64, .binary32, .mixed].map (fun a => scaleSample a ⟨3, 1⟩) = [825, 825, 825, 824] ∧
      [ScaleArith.exact, .binary64, .binary32, .mixed].map (fun a => scaleSample a ⟨3, 3⟩) = [2475, 2474, 2475, 2474] ∧
      [ScaleArith.exact, .binary64, .binary32, .mixed].map (fun a => scaleSample a ⟨7, 1⟩) = [412, 412, 412, 412] := by
  decide

/-! ### Witnesses: a state and operands that meet the hypotheses of each statement that has any -/

theorem test_witness_DecodeEncodeAgree :
    (Instr.encode 15 true).wellFormed = true ∧ (Instr.transmit 0x99 0x04).wellFormed = true ∧
      Instr.latchHi.wellFormed = true := by decide

theorem test_witness_EncodeDecodeAgree :
    decode (.command 0x0001F#17) = .ok (.encode 15 true) ∧ decode (.event 5#3) = .ok .latchHi := ⟨rfl, rfl⟩

theorem test_witness_ReservedEncodingsRefused :
    decode (.command 0x00020#17) = .error .reservedEncoding ∧ decode (.event 6#3) = .error .reservedEncoding := ⟨rfl, rfl⟩

/-- One witness per clause: the strobe, the main loop's command, the first and the last index of a frame. -/
theorem test_witness_StepRunsDecoded :
    ((atMove (.strobe 0x19904#17)).nextMove = .strobe 0x19904#17 ∧
      decode (.command 0x19904#17) = .ok (.transmit 0x99 0x04)) ∧
    ((atHost [.command 0x00004#17]).nextMove = .go Pins.quiet ∧ (atHost [.command 0x00004#17]).phase = .idle ∧
      (atHost [.command 0x00004#17]).agenda = .command 0x00004#17 :: [] ∧
      decode (.command 0x00004#17) = .ok (.encode 4 false)) ∧
    ((inFrame 0 false false).nextMove = .go Pins.quiet ∧ (inFrame 0 false false).phase = .event 0 ∧
      decode (.event (frameEvent (inFrame 0 false false).frame 0).code) = .ok .latchLo) ∧
    ((inFrame 49 false false).phase = .event 49 ∧
      decode (.event (frameEvent (inFrame 49 false false).frame 49).code) = .ok .latchHi) :=
  ⟨⟨rfl, rfl⟩, ⟨rfl, rfl, rfl, rfl⟩, ⟨rfl, rfl, rfl⟩, rfl, rfl⟩

theorem test_witness_FetchWordRunsInstruction :
    decodeTableWord 17 0x19904 = some (.transmit 0x99 0x04) ∧ decodeTableWord 3 1 = some .dataHi := by decide

/-- The digits' bounds, in and out of range, and a well-formed ROM. -/
theorem test_witness_EncodeLaws : (0 : Nat) < 10 ∧ (9 : Nat) < 10 ∧ (10 : Nat) ≤ 10 ∧ State.reset.RomWf := by decide

/-- SHOWDIGIT's clause of `EncodeOutOfRangeRefused`, at its least digit. -/
theorem test_witness_EncodeOutOfRangeRefused :
    (atHost [.showDigit 3 10 true]).nextMove = .go Pins.quiet ∧ (atHost [.showDigit 3 10 true]).phase = .idle ∧
      (atHost [.showDigit 3 10 true]).agenda = .showDigit 3 10 true :: [] := ⟨rfl, rfl, rfl⟩

theorem test_witness_EncodeDependsOnOperandsOnly : (inFrame 25 true true).pattern = State.reset.pattern := rfl

/-- Also of `TwoLevelsAgree`, `FrameBitExact`, `FrameCounts`: the block idle. -/
theorem test_witness_TransmitAccepted : State.reset.phase = .idle := rfl

theorem test_witness_TransmitRefusedWhileBusy :
    (inFrame 0 false false).phase = .event 0 ∧ (inFrame 49 false false).phase = .event 49 := ⟨rfl, rfl⟩

/-- `k = 0` with bit 1, `k = 15` with bit 0: indices 1 and 46. -/
theorem test_witness_DataMicroOps :
    ((inFrame 1 false false).nextMove = .go Pins.quiet ∧ (inFrame 1 false false).phase = .event 1 ∧
      (inFrame 1 false false).frame.getLsbD (15 - 0) = true) ∧
    ((inFrame 46 false true).phase = .event 46 ∧ (46 : Nat) = 1 + 3 * 15 ∧
      (inFrame 46 false true).frame.getLsbD (15 - 15) = false) := by
  refine ⟨⟨rfl, rfl, rfl⟩, rfl, rfl, rfl⟩

/-- The bounds of the clock indices, 2 and 47, 3 and 48, in states whose lines fit the place in the frame; and a step at
index 1. -/
theorem test_witness_ClockMicroOps :
    ((inFrame 2 false true).FrameWf ∧ (inFrame 2 false true).phase = .event 2) ∧
    ((inFrame 47 false false).FrameWf ∧ (inFrame 47 false false).phase = .event 47) ∧
    ((inFrame 3 true true).FrameWf ∧ (inFrame 3 true true).phase = .event 3) ∧
    ((inFrame 48 true false).FrameWf ∧ (inFrame 48 true false).phase = .event 48) ∧
    (∃ t, step (inFrame 1 true true) = .next t) := by
  refine ⟨⟨?_, rfl⟩, ⟨?_, rfl⟩, ⟨?_, rfl⟩, ⟨?_, rfl⟩, _, rfl⟩ <;> (simp only [State.FrameWf, inFrame]; decide)

/-- The two latch indices; at 0 with an event already emitted. -/
theorem test_witness_LatchMicroOps :
    ({ inFrame 0 false false with latch := true }.FrameWf ∧ (inFrame 0 false false).trace ≠ []) ∧
    (inFrame 49 false false).FrameWf := by
  refine ⟨⟨?_, by decide⟩, ?_⟩ <;> (simp only [State.FrameWf, inFrame]; decide)

/-- Indices of each clause: 0; 1 and 22; 25 and 46; 2 and 47; 3 and 48; 49. -/
theorem test_witness_SerializerFollowsTable :
    (inFrame 22 false false).nextMove = .go Pins.quiet ∧
      (22 : Nat) = 1 + 3 * 7 ∧ (25 : Nat) = 1 + 3 * 8 ∧ (46 : Nat) = 1 + 3 * 15 ∧ (47 : Nat) = 2 + 3 * 15 ∧
      (48 : Nat) = 3 + 3 * 15 := ⟨rfl, rfl, rfl, rfl, rfl, rfl⟩

/-- One completed step from each of: idle by a strobe, idle by the main loop, a frame, the last index, a tick in a frame.
Also of the statements over every step: `ReceiverFollowsLines`, `TraceDrivesReceiver`, `OnlySerializerWritesLines`,
`RomsConstant`. -/
theorem test_witness_PhaseTransitions :
    (∃ t, step (atMove (.strobe 0x19904#17)) = .next t) ∧ (∃ t, step (atHost []) = .next t) ∧
    (∃ t, step (inFrame 10 false true) = .next t) ∧ (∃ t, step (inFrame 49 false true) = .next t) ∧
    (∃ t, step { inFrame 25 false true with inputs := [.tick] } = .next t) ∧
    (atMove (.strobe 0x19904#17)).nextMove.notPowerCycle = true ∧ (atHost []).nextMove.notPowerCycle = true ∧
    (inFrame 10 false true).nextMove.notPowerCycle = true := by
  refine ⟨⟨_, rfl⟩, ⟨_, rfl⟩, ⟨_, rfl⟩, ⟨_, rfl⟩, ⟨_, rfl⟩, rfl, rfl, rfl⟩

theorem test_witness_TransmitCommitsOperands : State.reset.phase = .idle ∧ State.reset.clock = false := ⟨rfl, rfl⟩

/-- Both receiver edges. -/
theorem test_witness_FirstFrameHazard :
    ({ State.reset with clock := true }.phase = .idle ∧ { State.reset with clock := true }.rxEdge = .rising) ∧
    { State.reset with clock := true, rxEdge := .falling }.rxEdge = .falling := ⟨⟨rfl, rfl⟩, rfl⟩

theorem test_witness_TickCommutesWithSerializer : (inFrame 25 false true).phase = .event 25 := rfl

/-- T9: three ticks among the fifty steps. -/
theorem test_witness_FrameCompletesUnderTicks :
    ∃ moves : List Move, (∀ m ∈ moves, m.isGo = true ∨ m.isTick = true) ∧ moves.countP Move.isGo = 50 ∧
      moves.countP Move.isTick = 3 ∧ (inFrame 0 false false).phase = .event 0 :=
  ⟨List.replicate 25 (.go Pins.quiet) ++ [.tick, .go Pins.quiet, .tick, .tick] ++ List.replicate 24 (.go Pins.quiet),
    by decide, by decide, by decide, rfl⟩

/-- Also of `OneHotMaskLightsOnePosition`, `DecimalPointPlacement` and `PerceivedReadoutOfRender`. -/
theorem test_witness_DisplayShowsEncodedDigit :
    State.reset.RomWf ∧ State.reset.PatternInjective ∧ State.reset.clock = false := by decide

theorem test_witness_RenderDecomposes :
    (atHost [.render 12345 true 3]).nextMove = .go Pins.quiet ∧ (atHost [.render 12345 true 3]).phase = .idle ∧
      (atHost [.render 12345 true 3]).agenda = .render (12345 : Nat) true 3 :: [] := ⟨rfl, rfl, rfl⟩

/-- The bounds of `pos` outside and inside 0..3. -/
theorem test_witness_DecimalPointPlacement :
    ((-1 : Int) < 0 ∨ 3 < (-1 : Int)) ∧ ((4 : Int) < 0 ∨ 3 < (4 : Int)) ∧ State.reset.RomWf := by decide

theorem test_witness_NegativeValueRefused :
    (atHost [.render (-1) false 0]).nextMove = .go Pins.quiet ∧ (atHost [.render (-1) false 0]).phase = .idle ∧
      (atHost [.render (-1) false 0]).agenda = .render (-1) false 0 :: [] ∧ (-1 : Int) < 0 := by
  refine ⟨rfl, rfl, rfl, by decide⟩

theorem test_witness_ShowDigitWhole :
    (atHost [.showDigit 3 9 true]).phase = .idle ∧ (atHost [.showDigit 3 9 true]).agenda = .showDigit 3 9 true :: [] :=
  ⟨rfl, rfl⟩

/-- M17: two ticks among the 213 steps of M1. -/
theorem test_witness_RenderWhole :
    ((atHost [.render 245 true 1]).phase = .idle ∧ (atHost [.render 245 true 1]).clock = false ∧
      (atHost [.render 245 true 1]).agenda = .render (245 : Nat) true 1 :: []) ∧
    ∃ moves : List Move, (∀ m ∈ moves, m.isGo = true ∨ m.isTick = true) ∧ moves.countP Move.isGo = 213 ∧
      moves.countP Move.isTick = 2 :=
  ⟨⟨rfl, rfl, rfl⟩, .tick :: (List.replicate 213 (.go Pins.quiet) ++ [.tick]), by
    intro m hm
    simp only [List.mem_cons, List.mem_append, List.mem_replicate, List.not_mem_nil, or_false] at hm
    rcases hm with rfl | ⟨-, rfl⟩ | rfl <;> simp [Move.isGo, Move.isTick],
    by rw [List.countP_cons, List.countP_append, List.countP_replicate]; rfl,
    by rw [List.countP_cons, List.countP_append, List.countP_replicate]; rfl⟩

/-- No wrap, one wrap, both wraps. -/
theorem test_witness_TickRule :
    (atMove .tick).nextMove = .tick ∧ (0 + 1 ≠ 60) ∧
      { atMove .tick with minutes := 98, seconds := 59 }.seconds + 1 = 60 ∧
      { atMove .tick with minutes := 98, seconds := 59 }.minutes + 1 ≠ 100 ∧
      { atMove .tick with minutes := 99, seconds := 59 }.minutes + 1 = 100 := by
  refine ⟨rfl, by decide, rfl, by decide, rfl⟩

theorem test_witness_TickLaws :
    State.reset.ClockWf ∧ State.reset.seconds = 0 ∧ State.reset.minutes = 0 ∧
      { State.reset with minutes := 99, seconds := 59 }.ClockWf := by decide

theorem test_witness_ClkResetClears : (atHost [.clkReset]).phase = .idle ∧ (atHost [.clkReset]).agenda = .clkReset :: [] :=
  ⟨rfl, rfl⟩

theorem test_witness_TornReads : (atHost [.readTime]).phase = .idle ∧ (atHost [.readTime]).agenda = .readTime :: [] :=
  ⟨rfl, rfl⟩

/-- The hypotheses of the two clauses of `TornReset`. -/
theorem test_witness_TornReset :
    (atHost [.clkReset]).phase = .idle ∧ Pins.quiet.minutesFirst = true ∧
      { Pins.quiet with minutesFirst := false }.minutesFirst = false := ⟨rfl, rfl, rfl⟩

theorem test_witness_ResetBranch :
    (atHost [.pollReset]).nextMove = .go Pins.quiet ∧ (atHost [.pollReset]).agenda = .pollReset :: [] ∧
      Pins.quiet.resetLevel = true ∧ (atMove (.go resetPressed)).nextMove = .go resetPressed ∧
      (atMove (.go resetPressed)).agenda = .pollReset :: [] ∧ resetPressed.resetLevel = false :=
  ⟨rfl, rfl, rfl, rfl, rfl, rfl⟩

theorem test_witness_ModeAndTimeBranches :
    (atHost [.pollMode]).phase = .idle ∧ (atHost [.pollMode]).agenda = .pollMode :: [] ∧
      modePressed.modeLevel = false ∧ Pins.quiet.modeLevel = true ∧ (atHost [.pollMode]).ClockWf := by
  refine ⟨rfl, rfl, rfl, rfl, by decide⟩

/-- Samples 0 and 1, the ends of the range (V1, V5). -/
theorem test_witness_ScaleExactIsFloor : scaleSample .exact ⟨0, 0⟩ = 0 ∧ scaleSample .exact ⟨0, 1⟩ = 3300 := by decide

theorem test_witness_WaitHasNoEffect :
    (atHost [.wait 2]).nextMove = .go Pins.quiet ∧ (atHost [.wait 2]).phase = .idle ∧
      (atHost [.wait 2]).agenda = .wait 2 :: [] := ⟨rfl, rfl, rfl⟩

theorem test_witness_IdleBlockStaysIdle :
    (atHost []).nextMove = .go Pins.quiet ∧ (atHost []).phase = .idle ∧ (atHost []).agenda = [] := ⟨rfl, rfl, rfl⟩

theorem test_witness_PowerCycleResets :
    { inFrame 25 true true with inputs := [.powerCycle PowerOn.zero] }.nextMove = .powerCycle PowerOn.zero := rfl

theorem test_witness_StepKeepsInvariant : (inFrame 5 false false).Inv ∧ ∃ t, step (inFrame 5 false false) = .next t := by
  refine ⟨⟨by decide, by decide, ?_⟩, _, rfl⟩
  simp only [State.FrameWf, inFrame]
  decide

theorem test_witness_OneMasterNeverRefused :
    (atHost [.render 9999 true 3]).ClockWf ∧ (atHost [.render 9999 true 3]).AgendaOk ∧
      (atHost [.render 9999 true 3]).OneMaster := by decide

end Sys2Proof.Machine.Tests
end

/-! PROOF. A frame as a run of the machine: the state after some of its events, the serializer's steps from one such
state to the next, and the events of the whole frame read off the operands (spec/20_memory.md R52). -/

namespace Sys2Proof.Machine

open Sys2Proof

/-- `s` with a frame for `segments` and `digitSelect` accepted, the events `done` emitted, `PHASE = p` and the moves
`ms` still to come. -/
def State.midFrame (s : State) (segments digitSelect : Byte) (p : Phase) (done : List Event) (ms : List Move) : State :=
  { s.emitAll done with seg := segments, sel := digitSelect, phase := p, inputs := ms }

@[simp] theorem State.midFrame_trace (s : State) (a b : Byte) (p : Phase) (done : List Event) (ms : List Move) :
    (s.midFrame a b p done ms).trace = s.trace ++ done :=
  State.emitAll_trace s done

/-! ### Steps and runs inside a frame -/

/-- R138: from an idle block the presented TRANSMIT is accepted in one step, before any event. -/
theorem step_presentTransmit (s : State) (a b : Byte) (pins : Pins) (rest : List Move) (hidle : s.phase = .idle) :
    step (s.presentTransmit a b pins rest) =
      .next (s.midFrame a b (.event 0) [] (List.replicate 50 (.go pins) ++ rest)) := by
  have hdecode : decode (.command (encodeT a b)) = .ok (.transmit a b) := decodeCommand_encodeT a b
  rw [step_strobe rfl, perform_ok hdecode]
  exact exec_transmit_of_idle (s.presentTransmit a b pins rest).takeMove a b hidle

/-- R139, R140: the serializer's step at index `n` appends the event of that index and advances. -/
theorem step_midFrame (s : State) (a b : Byte) (n : Fin 50) (done : List Event) (pins : Pins) (ms : List Move) :
    step (s.midFrame a b (.event n) done (.go pins :: ms)) =
      .next (s.midFrame a b (Phase.advanced (.event n)) (done ++ [frameEvent (frameOf a b) n]) ms) := by
  rw [step_serializer (n := n) rfl rfl]
  simp only [State.midFrame, State.emitAll_append]
  rfl

/-- `k` serializer steps from index `n` that stay inside the frame append the events of the indices `n` to
`n + k - 1`. -/
theorem runSteps_midFrame (s : State) (a b : Byte) (pins : Pins) (ms : List Move) (k n : Nat) (h : n + k < 50)
    (done : List Event) :
    runSteps k (s.midFrame a b (.event ⟨n, by omega⟩) done (List.replicate k (.go pins) ++ ms)) =
      .next (s.midFrame a b (.event ⟨n + k, h⟩)
        (done ++ (List.range' n k).map (frameEvent (frameOf a b))) ms) := by
  induction k generalizing n done with
  | zero => simp
  | succ k ih =>
    have hstep := step_midFrame s a b ⟨n, by omega⟩ done pins (List.replicate k (.go pins) ++ ms)
    rw [Phase.advanced_event_lt _ (by simp only; omega)] at hstep
    rw [List.replicate_succ, List.cons_append, runSteps_succ k hstep, ih (n + 1) (by omega)]
    simp [List.range'_succ, Nat.add_comm, Nat.add_left_comm]

/-- R142: the presented TRANSMIT and its fifty serializer steps append the events of the frame and end idle. -/
theorem runSteps_presentTransmit (s : State) (a b : Byte) (pins : Pins) (rest : List Move) (hidle : s.phase = .idle) :
    runSteps 51 (s.presentTransmit a b pins rest) =
      .next (s.midFrame a b .idle (frameEvents (frameOf a b)) rest) := by
  have hinside := runSteps_midFrame s a b pins (.go pins :: rest) 49 0 (by decide) []
  have hlast := step_midFrame s a b 49 ((List.range' 0 49).map (frameEvent (frameOf a b))) pins rest
  rw [runSteps_succ 50 (step_presentTransmit s a b pins rest hidle)]
  exact (runSteps_add 49 1 hinside).trans (runSteps_succ 0 hlast)

/-! ### The events of a frame by its operands -/

/-- R84: the upper half of the frame is `segments`; pass `7 - j` of the loop sends its bit `j`. -/
theorem bitEvents_segments (a b : Byte) {j : Nat} (h : j < 8) :
    bitEvents (frameOf a b) (7 - j) = [⟨.data, a.getLsbD j⟩, ⟨.clock, true⟩, ⟨.clock, false⟩] := by
  have hindex : 15 - (7 - j) = j + 8 := by omega
  simp [bitEvents, hindex, frameOf_getLsbD]

/-- R84: the lower half of the frame is `digitSelect`; pass `15 - j` of the loop sends its bit `j`. -/
theorem bitEvents_digitSelect (a b : Byte) {j : Nat} (h : j < 8) :
    bitEvents (frameOf a b) (15 - j) = [⟨.data, b.getLsbD j⟩, ⟨.clock, true⟩, ⟨.clock, false⟩] := by
  have hindex : 15 - (15 - j) = j := by omega
  simp [bitEvents, hindex, frameOf_getLsbD, h]

/-- R52: most significant bit first, `segments` before `digitSelect`. -/
theorem frameEvents_frameOf (a b : Byte) :
    frameEvents (frameOf a b) =
      [⟨.latch, false⟩] ++
        [7, 6, 5, 4, 3, 2, 1, 0].flatMap (fun j => [⟨.data, a.getLsbD j⟩, ⟨.clock, true⟩, ⟨.clock, false⟩]) ++
        [7, 6, 5, 4, 3, 2, 1, 0].flatMap (fun j => [⟨.data, b.getLsbD j⟩, ⟨.clock, true⟩, ⟨.clock, false⟩]) ++
        [⟨.latch, true⟩] := by
  have hpasses : List.range 16 =
      [7, 6, 5, 4, 3, 2, 1, 0].map (7 - ·) ++ [7, 6, 5, 4, 3, 2, 1, 0].map (15 - ·) := by decide
  have hbits : ∀ j ∈ [7, 6, 5, 4, 3, 2, 1, 0], j < 8 := by decide
  rw [frameEvents, hpasses, List.flatMap_append, List.flatMap_map, List.flatMap_map,
    List.flatMap_congr fun j hj => bitEvents_segments a b (hbits j hj),
    List.flatMap_congr fun j hj => bitEvents_digitSelect a b (hbits j hj)]
  rfl

/-- Settles O20: the run appends the frame's events, and those are the operands' bits from 7 down to 0. -/
theorem frameBitExact : Obligations.FrameBitExact := by
  intro s a b pins rest hidle
  refine ⟨_, runSteps_presentTransmit s a b pins rest hidle, ?_⟩
  rw [State.midFrame_trace, frameEvents_frameOf]
  simp only [List.append_assoc]

end Sys2Proof.Machine

/-! PROOF. ENCODE inside 0..9: the entry of the ROM as the caller's byte, with and without the decimal point
(spec/40_encode.md R111, R112). -/

namespace Sys2Proof.Machine

open Sys2Proof

/-- R112: the AND clears bit 7 and keeps bits 6..0, whatever bit 7 was. -/
theorem getLsbD_and_0x7F (b : Byte) (k : Nat) : (b &&& 0x7F#8).getLsbD k = (b.getLsbD k && decide (k < 7)) := by
  have hmask : 0x7F#8 = (BitVec.allOnes 7).zeroExtend 8 := rfl
  have hwidth : (decide (k < 8) && decide (k < 7)) = decide (k < 7) := by
    rw [← Bool.decide_and, decide_eq_decide]
    omega
  rw [BitVec.getLsbD_and, hmask, BitVec.getLsbD_setWidth, BitVec.getLsbD_allOnes, hwidth]

/-- R111: without the point the caller gets the ROM entry as it stands. -/
theorem exec_encode_pointOff (s : State) (d : Nat) (h : d < 10) :
    exec (.encode d false) s = .next (s.setSegOut s.pattern[d]) := by
  rw [exec_encode_of_lt s d h, gateDp_false]

/-- R112: with the point the caller gets the ROM entry with bit 7 cleared. -/
theorem exec_encode_pointOn (s : State) (d : Nat) (h : d < 10) :
    exec (.encode d true) s = .next (s.setSegOut (s.pattern[d] &&& 0x7F#8)) := by
  rw [exec_encode_of_lt s d h, gateDp_true]

/-- Settles O7: without the point the entry passes the gate unchanged, and it is the complement of the table's. -/
theorem encodeReturnsRomEntry : Obligations.EncodeReturnsRomEntry := by
  intro s d h
  refine ⟨exec_encode_pointOff s d h, fun cc hcc => ?_⟩
  have hentry : s.pattern[d] = ~~~cc[d] := hcc ⟨d, h⟩
  rw [← hentry]
  exact exec_encode_pointOff s d h

/-- Settles O8: the gate is the statement's expression for both `dp`; with the point it is the AND that drops bit 7. -/
theorem encodeClearsPointBit : Obligations.EncodeClearsPointBit := by
  intro s d h
  refine ⟨exec_encode_pointOn s d h, exec_encode_of_lt s d h, ?_, fun k hk => ?_⟩
  · rw [getLsbD_and_0x7F, decide_eq_false (by decide), Bool.and_false]
  · rw [getLsbD_and_0x7F, decide_eq_true hk, Bool.and_true]

end Sys2Proof.Machine

/-! PROOF. The micro-operations: what each leaves unchanged, the serializer's step as the row of the table that its
index selects, and the idle block, which writes no line (spec/41_transmit.md R131 to R139). -/

namespace Sys2Proof.Machine

open Sys2Proof

/-! ### What a line write leaves -/

/-- R131, R132: the receiver does not react to a write of `DATA`. -/
theorem State.emit_data_eq (s : State) (v : Bool) :
    s.emit .data v = { s with data := v, trace := s.trace ++ [⟨.data, v⟩] } := rfl

/-- R133, R134: of the receiver a write of `CLOCK` moves at most `SR`. -/
theorem State.emit_clock_eq (s : State) (v : Bool) :
    s.emit .clock v =
      { s with clock := v, trace := s.trace ++ [⟨.clock, v⟩], sr := s.srAfter .clock v } := rfl

/-! ### The rows of the table -/

/-- R33: index 0 is the latch's fall. -/
theorem frameEvent_first (frame : Frame) (n : Nat) (h : n = 0) : frameEvent frame n = ⟨.latch, false⟩ := by
  subst h
  rfl

/-- R33: index 49 is the latch's rise. -/
theorem frameEvent_last (frame : Frame) (n : Nat) (h : n = 49) : frameEvent frame n = ⟨.latch, true⟩ := by
  subst h
  rfl

/-- R84: the first eight bits sent are those of `SEG`. -/
theorem State.frame_getLsbD_seg (s : State) {k : Nat} (h : k < 8) :
    s.frame.getLsbD (15 - k) = s.seg.getLsbD (7 - k) := by
  have hupper : ¬ 15 - k < 8 := by omega
  have hindex : 15 - k - 8 = 7 - k := by omega
  rw [State.frame, frameOf_getLsbD, if_neg hupper, hindex]

/-- R84: the last eight bits sent are those of `SEL`. -/
theorem State.frame_getLsbD_sel (s : State) {k : Nat} (h : 8 ≤ k) :
    s.frame.getLsbD (15 - k) = s.sel.getLsbD (15 - k) := by
  have hlower : 15 - k < 8 := by omega
  rw [State.frame, frameOf_getLsbD, if_pos hlower]

section
variable {s : State} {pins : Pins} {n : Fin 50} (hmove : s.nextMove = .go pins) (hphase : s.phase = .event n)
include hmove hphase

/-- R139: the serializer's step is the micro-operation of the event that its index selects. -/
theorem step_of_frameEvent {e : Event} (h : frameEvent s.frame n = e) :
    step s = .next (s.takeMove.emit e.line e.level).advance := by
  rw [step_serializer hmove hphase, h]

theorem step_latchLow (h : n.val = 0) : step s = exec .latchLo s.takeMove :=
  step_of_frameEvent hmove hphase (frameEvent_first _ _ h)

theorem step_dataWrite {k : Nat} (hk : k < 16) (h : n.val = 1 + 3 * k) :
    step s = exec (if s.frame.getLsbD (15 - k) = true then .dataHi else .dataLo) s.takeMove := by
  rw [step_of_frameEvent hmove hphase (frameEvent_data _ _ k hk h)]
  cases s.frame.getLsbD (15 - k) with
  | false => rfl
  | true => rfl

theorem step_clockHigh {k : Nat} (hk : k < 16) (h : n.val = 2 + 3 * k) : step s = exec .clkHi s.takeMove :=
  step_of_frameEvent hmove hphase (frameEvent_clockHigh _ _ k hk h)

theorem step_clockLow {k : Nat} (hk : k < 16) (h : n.val = 3 + 3 * k) : step s = exec .clkLo s.takeMove :=
  step_of_frameEvent hmove hphase (frameEvent_clockLow _ _ k hk h)

theorem step_latchHigh (h : n.val = 49) : step s = exec .latchHi s.takeMove :=
  step_of_frameEvent hmove hphase (frameEvent_last _ _ h)

/-- R134: the steps before the first clock pulse of a frame leave `CLOCK`. -/
theorem step_keeps_clock_of_le_one {t : State} (h : n.val ≤ 1) (hstep : step s = .next t) :
    t.clock = s.clock := by
  obtain hzero | hone : n.val = 0 ∨ n.val = 1 + 3 * 0 := by omega
  · rw [step_of_frameEvent hmove hphase (frameEvent_first _ _ hzero)] at hstep
    cases hstep
    rfl
  · rw [step_of_frameEvent hmove hphase (frameEvent_data _ _ 0 (by decide) hone)] at hstep
    cases hstep
    rfl

end

/-! ### `CLOCK` where the lines fit the place in the frame -/

/-- R133: `CLOCK` is high between the two writes of a pulse. -/
theorem State.FrameWf.clock_high {s : State} {n : Fin 50} (hf : s.FrameWf) (hphase : s.phase = .event n)
    (h : 3 ≤ n.val) (hmod : n.val % 3 = 0) : s.clock = true := by
  simp only [State.FrameWf, hphase] at hf
  obtain ⟨-, -, hhigh, -⟩ := hf
  exact hhigh h hmod

/-- R134: after the first pulse `CLOCK` is low everywhere else. -/
theorem State.FrameWf.clock_low {s : State} {n : Fin 50} (hf : s.FrameWf) (hphase : s.phase = .event n)
    (h : 4 ≤ n.val) (hmod : n.val % 3 ≠ 0) : s.clock = false := by
  simp only [State.FrameWf, hphase] at hf
  obtain ⟨-, -, -, hlow, -⟩ := hf
  exact hlow h hmod

/-! ### The idle block -/

/-- R139: between frames no agent's step but a power cycle touches the lines, the trace or the receiver. -/
theorem sameOutputs_step_of_idle {s t : State} (hidle : s.phase = .idle)
    (hpower : s.nextMove.notPowerCycle = true) (h : step s = .next t) : SameOutputs s.takeMove t := by
  obtain ⟨-, rfl⟩ | ⟨w, i, -, hdecode, hexec⟩ | ⟨p, hmove, -⟩ | ⟨pins, n, -, hevent, -⟩ | ⟨pins, -, -, hhost⟩ :=
    step_cases h
  case inl => exact ⟨rfl, rfl, rfl, rfl, rfl, rfl, rfl, rfl, rfl, rfl, rfl, rfl⟩
  case inr.inl =>
    have hperform : perform (.command w) s.takeMove = .next t :=
      (perform_ok (e := .command w) hdecode s.takeMove).trans hexec
    exact sameOutputs_perform_command hperform
  case inr.inr.inl =>
    rw [hmove] at hpower
    cases hpower
  case inr.inr.inr.inl =>
    rw [hidle] at hevent
    cases hevent
  case inr.inr.inr.inr => exact sameOutputs_hostStep hhost

/-! ### The statements -/

/-- Settles O14: a write of `DATA` moves nothing in the receiver, and the step at index `1 + 3k` is the write of the
frame's bit. -/
theorem dataMicroOps : Obligations.DataMicroOps := by
  refine ⟨fun s => ⟨_, exec_dataLo s, ?_⟩, fun s => ⟨_, exec_dataHi s, ?_⟩, ?_⟩
  · rw [State.emit_data_eq]
    rfl
  · rw [State.emit_data_eq]
    rfl
  · intro s pins n k hmove hphase hk hn
    refine ⟨fun hbit => ?_, fun hbit => ?_⟩
    · rw [step_dataWrite hmove hphase hk hn, if_neg (by simp [hbit])]
    · rw [step_dataWrite hmove hphase hk hn, if_pos hbit]

/-- Settles O15: a write of `CLOCK` moves at most `SR`; the steps are rows of the table, and the levels before them are
those of `FrameWf`. -/
theorem clockMicroOps : Obligations.ClockMicroOps := by
  refine ⟨fun s => ⟨_, exec_clkLo s, ?_⟩, fun s => ⟨_, exec_clkHi s, ?_⟩, ?_, ?_, ?_⟩
  · rw [State.emit_clock_eq]
    rfl
  · rw [State.emit_clock_eq]
    rfl
  · intro s pins n k hmove hphase hk
    refine ⟨fun hn => ?_, step_clockLow hmove hphase hk⟩
    have hstep := step_clockHigh hmove hphase hk hn
    have hinside : n.val + 1 < 50 := by omega
    refine ⟨hstep, _, hstep, hinside, ?_⟩
    rw [State.advance_phase, State.emit_phase, State.takeMove_phase, hphase, Phase.advanced_event_lt n hinside]
  · intro s n k hf hphase hk
    exact ⟨fun hn => hf.clock_high hphase (by omega) (by omega),
      fun hpos hn => hf.clock_low hphase (by omega) (by omega)⟩
  · intro s t pins n hmove hphase hn hstep
    exact step_keeps_clock_of_le_one hmove hphase hn hstep

/-- Settles O17: each row of the table is the one step there is, its bits are read off the half of the frame they lie
in, and at `IDLE` the outputs stay. -/
theorem serializerFollowsTable : Obligations.SerializerFollowsTable := by
  refine ⟨?table, ?idle⟩
  case table =>
    intro s pins n hmove hphase
    have hstep := step_serializer hmove hphase
    refine ⟨_, hstep, rfl, ?_, ?_, ?_, ?_, ?_, ?_⟩
    · exact fun hn => (step_latchLow hmove hphase hn).symm.trans hstep
    · intro k hk hn
      rw [← s.frame_getLsbD_seg hk]
      exact (step_dataWrite hmove hphase (by omega) hn).symm.trans hstep
    · intro k hlow hk hn
      rw [← s.frame_getLsbD_sel hlow]
      exact (step_dataWrite hmove hphase hk hn).symm.trans hstep
    · exact fun k hk hn => (step_clockHigh hmove hphase hk hn).symm.trans hstep
    · exact fun k hk hn => (step_clockLow hmove hphase hk hn).symm.trans hstep
    · exact fun hn => (step_latchHigh hmove hphase hn).symm.trans hstep
  case idle =>
    intro s t hidle hpower hstep
    have hsame := sameOutputs_step_of_idle hidle hpower hstep
    exact ⟨hsame.trace, hsame.data, hsame.clock, hsame.latch⟩

end Sys2Proof.Machine

/-! PROOF. The counts of a frame: its events split by line, and its event at each index (spec/41_transmit.md R143). -/

namespace Sys2Proof.Machine

open Sys2Proof

/-! ### The events on one line -/

theorem frameEvents_latch (frame : Frame) :
    (frameEvents frame).filter (fun e => e.line = .latch) = [⟨.latch, false⟩, ⟨.latch, true⟩] := rfl

theorem frameEvents_clock (frame : Frame) :
    (frameEvents frame).filter (fun e => e.line = .clock) =
      (List.replicate 16 [⟨.clock, true⟩, ⟨.clock, false⟩]).flatten := rfl

/-- R144: the data writes of a frame are its bits, from bit 15 down. -/
theorem frameEvents_data (frame : Frame) :
    (frameEvents frame).filter (fun e => e.line = .data) =
      (List.range 16).reverse.map fun j => ⟨.data, frame.getLsbD j⟩ := rfl

/-- An event is counted among the events on its line. -/
theorem count_eq_count_line (e : Event) (es : List Event) :
    es.count e = (es.filter fun x => x.line = e.line).count e :=
  (List.count_filter (by simp)).symm

theorem count_latch_frameEvents (frame : Frame) (v : Bool) : (frameEvents frame).count ⟨.latch, v⟩ = 1 := by
  rw [count_eq_count_line, frameEvents_latch]
  cases v with
  | false => rfl
  | true => rfl

theorem count_clock_frameEvents (frame : Frame) (v : Bool) : (frameEvents frame).count ⟨.clock, v⟩ = 16 := by
  rw [count_eq_count_line, frameEvents_clock]
  cases v with
  | false => rfl
  | true => rfl

theorem countP_data_frameEvents (frame : Frame) : (frameEvents frame).countP (fun e => e.line = .data) = 16 := by
  rw [List.countP_eq_length_filter, frameEvents_data, List.length_map, List.length_reverse, List.length_range]

/-- R143: as many writes of a level on `DATA` as the frame has bits of that level. -/
theorem count_data_frameEvents (frame : Frame) (v : Bool) :
    (frameEvents frame).count ⟨.data, v⟩ = (List.range 16).countP fun k => frame.getLsbD k == v := by
  rw [count_eq_count_line, frameEvents_data, List.count, List.countP_map, List.countP_reverse]
  refine List.countP_congr fun k _ => ?_
  simp

/-- The bits that are 0 are those that are not 1. -/
theorem countP_bits_false (frame : Frame) :
    ((List.range 16).countP fun k => frame.getLsbD k == false) =
      16 - (List.range 16).countP fun k => frame.getLsbD k := by
  have hsplit := List.length_eq_countP_add_countP (fun k => frame.getLsbD k) (l := List.range 16)
  simp only [List.length_range, Bool.not_eq_true, Bool.decide_eq_false] at hsplit
  simp only [beq_false]
  omega

/-! ### The event at an index -/

theorem frameEvents_getElem? (frame : Frame) {n : Nat} (h : n < 50) :
    (frameEvents frame)[n]? = some (frameEvent frame n) := by
  simp [← eventsFrom_zero, eventsFrom, h]

theorem frameEvents_length (frame : Frame) : (frameEvents frame).length = 50 := rfl

/-- The event found at `n` is the table's, and `n` is an index of the frame. -/
theorem frameEvent_of_getElem? {frame : Frame} {n : Nat} {e : Event} (h : (frameEvents frame)[n]? = some e) :
    n < 50 ∧ frameEvent frame n = e := by
  obtain ⟨hlt, -⟩ := List.getElem?_eq_some_iff.mp h
  rw [frameEvents_getElem? frame hlt] at h
  exact ⟨hlt, Option.some.inj h⟩

/-- The rows of R139's table, each index with its event: a latch write, or one of the three writes of pulse `k`. -/
theorem frameEvent_rows (frame : Frame) {n : Nat} (h : n < 50) :
    (∃ v, frameEvent frame n = ⟨.latch, v⟩) ∨
    ∃ k, k < 16 ∧
      (n = 1 + 3 * k ∧ frameEvent frame n = ⟨.data, frame.getLsbD (15 - k)⟩ ∨
        n = 2 + 3 * k ∧ frameEvent frame n = ⟨.clock, true⟩ ∨
        n = 3 + 3 * k ∧ frameEvent frame n = ⟨.clock, false⟩) := by
  by_cases hfirst : n = 0
  · exact .inl ⟨false, frameEvent_first frame n hfirst⟩
  by_cases hlast : n = 49
  · exact .inl ⟨true, frameEvent_last frame n hlast⟩
  have hk : (n - 1) / 3 < 16 := by omega
  obtain hdata | hhigh | hlow :
      n = 1 + 3 * ((n - 1) / 3) ∨ n = 2 + 3 * ((n - 1) / 3) ∨ n = 3 + 3 * ((n - 1) / 3) := by omega
  · exact .inr ⟨_, hk, .inl ⟨hdata, frameEvent_data frame n _ hk hdata⟩⟩
  · exact .inr ⟨_, hk, .inr (.inl ⟨hhigh, frameEvent_clockHigh frame n _ hk hhigh⟩)⟩
  · exact .inr ⟨_, hk, .inr (.inr ⟨hlow, frameEvent_clockLow frame n _ hk hlow⟩)⟩

/-- R134: only the indices `2 + 3k` raise `CLOCK`. -/
theorem frameIndex_of_clockHigh {frame : Frame} {n : Nat} (hn : n < 50) (h : frameEvent frame n = ⟨.clock, true⟩) :
    ∃ k, k < 16 ∧ n = 2 + 3 * k := by
  simpa [h] using frameEvent_rows frame hn

/-- R131, R132: only the indices `1 + 3k` write `DATA`. -/
theorem frameIndex_of_data {frame : Frame} {n : Nat} {v : Bool} (hn : n < 50) (h : frameEvent frame n = ⟨.data, v⟩) :
    ∃ k, k < 16 ∧ n = 1 + 3 * k ∧ v = frame.getLsbD (15 - k) := by
  simpa [h] using frameEvent_rows frame hn

theorem clockLow_after_clockHigh (frame : Frame) (n : Nat) (h : (frameEvents frame)[n]? = some ⟨.clock, true⟩) :
    (frameEvents frame)[n + 1]? = some ⟨.clock, false⟩ := by
  obtain ⟨hn, hevent⟩ := frameEvent_of_getElem? h
  obtain ⟨k, hk, rfl⟩ := frameIndex_of_clockHigh hn hevent
  rw [frameEvents_getElem? frame (by omega), frameEvent_clockLow frame _ k hk (by omega)]

theorem clockHigh_after_data (frame : Frame) (n : Nat) (v : Bool)
    (h : (frameEvents frame)[n]? = some ⟨.data, v⟩) : (frameEvents frame)[n + 1]? = some ⟨.clock, true⟩ := by
  obtain ⟨hn, hevent⟩ := frameEvent_of_getElem? h
  obtain ⟨k, hk, rfl, -⟩ := frameIndex_of_data hn hevent
  rw [frameEvents_getElem? frame (by omega), frameEvent_clockHigh frame _ k hk (by omega)]

/-- Settles O21: the run appends the frame's events; they are counted line by line and followed index by index. -/
theorem frameCounts : Obligations.FrameCounts := by
  intro s a b pins rest hidle
  have hones : (frameEvents (frameOf a b)).count ⟨.data, true⟩ =
      (List.range 16).countP fun k => (frameOf a b).getLsbD k := by
    simpa using count_data_frameEvents (frameOf a b) true
  have hzeros := (count_data_frameEvents (frameOf a b) false).trans (countP_bits_false (frameOf a b))
  exact ⟨_, frameEvents (frameOf a b), runSteps_presentTransmit s a b pins rest hidle, State.midFrame_trace ..,
    frameEvents_length _, count_latch_frameEvents _ false, rfl, count_latch_frameEvents _ true, rfl,
    countP_data_frameEvents _, count_clock_frameEvents _ true, count_clock_frameEvents _ false,
    clockLow_after_clockHigh _, clockHigh_after_data _, hones, hzeros⟩

end Sys2Proof.Machine

/-! PROOF. RENDER: the step of the main loop as the four SHOWDIGITs it puts first, the digits of a value and of its
low four digits, and the position that gets the point (spec/43_render.md R181, R186, R187). -/

namespace Sys2Proof.Machine

open Sys2Proof

/-! ### The step -/

/-- The main loop performs the operation in front and goes on with the rest. -/
theorem hostStep_of_agenda (pins : Pins) {s : State} {op : HostOp} {rest : List HostOp} (h : s.agenda = op :: rest) :
    hostStep pins s = hostOp op pins { s with agenda := rest } := by
  simp only [hostStep, State.popAgenda, h, List.tail_cons]

/-- R184: RENDER of a natural completes, whatever its size, and puts its four SHOWDIGITs first. -/
theorem hostOp_render (v : Nat) (showPoint : Bool) (pos : Int) (pins : Pins) (s : State) :
    hostOp (.render v showPoint pos) pins s = .next (s.push (showDigits v showPoint pos)) := rfl

/-! ### The digits -/

/-- R181, R187: the four SHOWDIGITs by their formulas. -/
theorem showDigits_eq (v : Nat) (showPoint : Bool) (pos : Int) :
    showDigits v showPoint pos =
      [.showDigit 0 (v / 1000 % 10) (showPoint && pos == 0), .showDigit 1 (v / 100 % 10) (showPoint && pos == 1),
        .showDigit 2 (v / 10 % 10) (showPoint && pos == 2), .showDigit 3 (v % 10) (showPoint && pos == 3)] := by
  have hpoint : ∀ i : Fin 4, pointAt showPoint pos i = (showPoint && pos == (i.val : Int)) := fun i => by
    rw [pointAt, beq_eq_decide, decide_eq_decide.mpr eq_comm]
  simp only [showDigits, hpoint]
  rfl

/-- R186: the four digits recompose to the value's remainder. -/
theorem digitAt_recompose (v : Nat) :
    1000 * digitAt v 0 + 100 * digitAt v 1 + 10 * digitAt v 2 + digitAt v 3 = v % 10000 := by
  simp only [digitAt]
  omega

/-- R186: the digits depend on the value's remainder only. -/
theorem digitAt_mod (v : Nat) : digitAt (v % 10000) = digitAt v := by
  funext i
  match i with
  | 0 => simp only [digitAt]; omega
  | 1 => simp only [digitAt]; omega
  | 2 => simp only [digitAt]; omega
  | 3 => simp only [digitAt]; omega

theorem showDigits_mod (v : Nat) (showPoint : Bool) (pos : Int) :
    showDigits (v % 10000) showPoint pos = showDigits v showPoint pos := by
  simp only [showDigits, digitAt_mod]

theorem renderEvents_mod (pattern : Vector Byte 10) (mask : Vector Byte 4) (v : Nat) (showPoint : Bool) (pos : Int) :
    renderEvents pattern mask (v % 10000) showPoint pos = renderEvents pattern mask v showPoint pos := by
  have hframe : ∀ i, renderFrame pattern mask (v % 10000) showPoint pos i =
      renderFrame pattern mask v showPoint pos i := fun i => by
    rw [renderFrame, renderFrame, digitAt_mod]
  rw [renderEvents, renderEvents, renderFrames, renderFrames, funext hframe]

/-! ### The point -/

/-- R187: no position gets the point where it is switched off or `pos` names no position. -/
theorem pointAt_off {showPoint : Bool} {pos : Int} (h : ¬ (showPoint = true ∧ 0 ≤ pos ∧ pos ≤ 3)) (i : Fin 4) :
    pointAt showPoint pos i = false := by
  rw [pointAt, Bool.and_eq_false_imp]
  intro hshow
  refine decide_eq_false fun hpos => h ⟨hshow, ?_⟩
  omega

/-- R187: otherwise the position that `pos` names gets it. -/
theorem pointAt_on (p i : Fin 4) : pointAt true p.val i = (i == p) := by
  rw [pointAt, Bool.true_and, Bool.eq_iff_iff, decide_eq_true_iff, beq_iff_eq, Fin.ext_iff, Int.natCast_inj]

theorem showDigits_off (v : Nat) {showPoint : Bool} {pos : Int} (h : ¬ (showPoint = true ∧ 0 ≤ pos ∧ pos ≤ 3)) :
    showDigits v showPoint pos = (List.finRange 4).map fun i => .showDigit i (digitAt v i) false := by
  simp only [showDigits, pointAt_off h]

theorem showDigits_on (v : Nat) (p : Fin 4) :
    showDigits v true p.val = (List.finRange 4).map fun i => .showDigit i (digitAt v i) (i == p) := by
  simp only [showDigits, pointAt_on]

/-- R187: at most one of the four positions gets the point. -/
theorem countP_pointAt (showPoint : Bool) (pos : Int) :
    (List.finRange 4).countP (pointAt showPoint pos) = if showPoint = true ∧ 0 ≤ pos ∧ pos ≤ 3 then 1 else 0 := by
  split
  next h =>
    obtain ⟨rfl, hlow, hhigh⟩ := h
    obtain ⟨n, rfl⟩ := Int.eq_ofNat_of_zero_le hlow
    have hn : n < 4 := by omega
    rw [funext (pointAt_on ⟨n, hn⟩)]
    exact List.count_finRange ⟨n, hn⟩
  next h =>
    rw [funext (pointAt_off h), List.countP_false]
    rfl

/-! ### The point bit of a frame -/

/-- R84: bit 15 of a frame is the point bit of its pattern byte. -/
theorem frameOf_getLsbD_fifteen (a b : Byte) : (frameOf a b).getLsbD 15 = a.getLsbD 7 :=
  frameOf_getLsbD a b 15

/-- R112: bit 7 after the gate. -/
theorem gateDp_getLsbD_seven (b : Byte) (dp : Bool) : (gateDp b dp).getLsbD 7 = (b.getLsbD 7 && !dp) := by
  cases dp with
  | false => rw [gateDp_false, Bool.not_false, Bool.and_true]
  | true => rw [gateDp_true, getLsbD_and_0x7F]; rfl

/-- R182, R183: the digits are in 0..9, so every position has its frame. -/
theorem renderFrame_eq (pattern : Vector Byte 10) (mask : Vector Byte 4) (v : Nat) (showPoint : Bool) (pos : Int)
    (i : Fin 4) :
    renderFrame pattern mask v showPoint pos i =
      some (frameOf (gateDp (pattern[digitAt v i]'(digitAt_lt v i)) (pointAt showPoint pos i)) mask[i]) := by
  rw [renderFrame, encodeByte_of_lt _ _ (digitAt_lt v i), Option.map_some]

theorem renderFrames_eq (pattern : Vector Byte 10) (mask : Vector Byte 4) (v : Nat) (showPoint : Bool) (pos : Int) :
    renderFrames pattern mask v showPoint pos = (List.finRange 4).map fun i =>
      frameOf (gateDp (pattern[digitAt v i]'(digitAt_lt v i)) (pointAt showPoint pos i)) mask[i] := by
  rw [renderFrames, funext (renderFrame_eq pattern mask v showPoint pos)]
  exact congrFun List.filterMap_eq_map _

/-- R24: with bit 7 of every entry 1, bit 15 of a position's frame is clear where the position has the point. -/
theorem countP_renderFrames {s : State} (hrom : s.RomWf) (v : Nat) (showPoint : Bool) (pos : Int) :
    (renderFrames s.pattern s.mask v showPoint pos).countP (fun f => !f.getLsbD 15) =
      (List.finRange 4).countP (pointAt showPoint pos) := by
  obtain ⟨hentry, -⟩ := hrom
  rw [renderFrames_eq, List.countP_map]
  refine List.countP_congr fun i _ => ?_
  have hbit : (s.pattern[digitAt v i]'(digitAt_lt v i)).getLsbD 7 = true := hentry ⟨_, digitAt_lt v i⟩
  rw [Function.comp_apply, frameOf_getLsbD_fifteen, gateDp_getLsbD_seven, hbit, Bool.true_and, Bool.not_not]

/-! ### The statements -/

/-- Settles O32: the main loop takes the RENDER in front and puts the four SHOWDIGITs before the rest. -/
theorem renderDecomposes : Obligations.RenderDecomposes := by
  intro s pins v showPoint pos rest hmove hphase hagenda
  rw [step_host hmove hphase, hostStep_of_agenda pins (s.takeMove_agenda.trans hagenda), hostOp_render, showDigits_eq]
  rfl

/-- Settles O33: the digits, and with them the SHOWDIGITs and the events, depend on `v % 10000` only. -/
theorem truncationLaw : Obligations.TruncationLaw := by
  refine ⟨digitAt_recompose, fun v showPoint pos pins s => ⟨?_, ⟨_, hostOp_render v showPoint pos pins s⟩, ?_⟩⟩
  · rw [hostOp_render, hostOp_render, showDigits_mod]
  · rw [renderEvents_mod]

/-- Settles O34: the point is off at every position or on at exactly the one of `pos`, and a frame's bit 15 shows it. -/
theorem decimalPointPlacement : Obligations.DecimalPointPlacement := by
  refine ⟨?outside, ?hidden, ?inside, ?frames⟩
  case outside =>
    intro v pos pins s hpos
    rw [hostOp_render, hostOp_render, showDigits_off v (by omega), showDigits_off v (by simp)]
  case hidden =>
    intro v pos pins s
    rw [hostOp_render, showDigits_off v (by simp)]
    rfl
  case inside =>
    intro v p pins s
    rw [hostOp_render, showDigits_on]
    rfl
  case frames =>
    intro s v showPoint pos hrom
    refine ⟨?_, (countP_renderFrames hrom v showPoint pos).trans (countP_pointAt showPoint pos)⟩
    rw [renderFrames_eq, List.length_map, List.length_finRange]

end Sys2Proof.Machine

/-! PROOF. The clock and the arbiter: the three cases of TICK, and the poll of the reset button at either level
(spec/44_host_clock_and_arbiter.md R201, R208). -/

namespace Sys2Proof.Machine

open Sys2Proof

/-! ### TICK -/

/-- Inside a minute TICK counts a second and leaves the minutes. -/
theorem State.tick_of_seconds_ne (s : State) (hsec : s.seconds + 1 ≠ 60) :
    s.tick = { s with seconds := s.seconds + 1 } := by
  rw [State.tick, if_neg hsec, if_neg hsec]

/-- At the end of a minute the second carries into the minutes. -/
theorem State.tick_of_minutes_ne (s : State) (hsec : s.seconds + 1 = 60) (hmin : s.minutes + 1 ≠ 100) :
    s.tick = { s with seconds := 0, minutes := s.minutes + 1 } := by
  rw [State.tick, if_pos hsec, if_pos hsec, if_neg hmin]

/-- At the end of the hundredth minute both counters wrap. -/
theorem State.tick_of_wrap (s : State) (hsec : s.seconds + 1 = 60) (hmin : s.minutes + 1 = 100) :
    s.tick = { s with seconds := 0, minutes := 0 } := by
  rw [State.tick, if_pos hsec, if_pos hsec, if_pos hmin]

/-! ### The poll of the reset button -/

/-- At level 0 the reset branch comes first: CLKRESET, WAIT 200, and then the mode test. -/
theorem hostOp_pollReset_low {pins : Pins} (hlevel : pins.resetLevel = false) (s : State) :
    hostOp .pollReset pins s = .next (s.push [.clkReset, .wait 200, .pollMode]) := by
  simp [hostOp, hostPollReset, Pins.resetAsserted, hlevel]

/-- At level 1 the mode test comes at once. -/
theorem hostOp_pollReset_high {pins : Pins} (hlevel : pins.resetLevel = true) (s : State) :
    hostOp .pollReset pins s = .next (s.push [.pollMode]) := by
  simp [hostOp, hostPollReset, Pins.resetAsserted, hlevel]

/-! ### The statements -/

/-- Settles O39: a delivered tick performs one whole TICK, which counts, carries or wraps; taking the move leaves both
counters. -/
theorem tickRule : Obligations.TickRule := by
  intro s hmove
  rw [step_tick hmove]
  refine ⟨fun hsec => ?count, fun hsec hmin => ?carry, fun hsec hmin => ?wrap⟩
  case count => rw [s.takeMove.tick_of_seconds_ne hsec, State.takeMove_seconds]
  case carry => rw [s.takeMove.tick_of_minutes_ne hsec hmin, State.takeMove_minutes]
  case wrap => rw [s.takeMove.tick_of_wrap hsec hmin]

/-- Settles O44: the main loop takes the poll in front, and what it puts before the rest depends on the level alone. -/
theorem resetBranch : Obligations.ResetBranch := by
  intro s pins rest hmove hphase hagenda
  rw [step_host hmove hphase, hostStep_of_agenda pins (s.takeMove_agenda.trans hagenda)]
  exact ⟨fun hlow => hostOp_pollReset_low hlow _, fun hhigh => hostOp_pollReset_high hhigh _⟩

end Sys2Proof.Machine

/-! PROOF. The words: the two masks of the command decoder as facts about bits, and decoder and encoder as inverses
(spec/30_encoding.md sections 4, 5 and 8). -/

namespace Sys2Proof.Machine

open Sys2Proof

/-! ### The decoder's two tests -/

/-- R86: bit 16 selects the format. -/
theorem and_formatMask_iff (w : CommandWord) : w &&& 0x10000#17 = 0x10000#17 ↔ w.getLsbD 16 = true := by
  have hmask : 0x10000#17 = BitVec.twoPow 17 16 := rfl
  rw [hmask, BitVec.and_twoPow]
  split
  next h => exact iff_of_true rfl h
  next h => exact iff_of_false (by decide) h

theorem getLsbD_reservedMask (k : Nat) : (0x1FFE0#17).getLsbD k = decide (5 ≤ k ∧ k ≤ 16) := by
  have hinside : ∀ j : Fin 17, (0x1FFE0#17).getLsbD j = decide (5 ≤ j.val ∧ j.val ≤ 16) := by decide
  by_cases hk : k < 17
  · exact hinside ⟨k, hk⟩
  · rw [BitVec.getLsbD_of_ge _ _ (by omega), decide_eq_false (by omega)]

/-- R87: bits 16..5 of a format-E word are zero. -/
theorem and_reservedMask_iff (w : CommandWord) :
    w &&& 0x1FFE0#17 = 0#17 ↔ ∀ k, 5 ≤ k → k ≤ 16 → w.getLsbD k = false := by
  simp only [BitVec.eq_of_getLsbD_eq_iff, BitVec.getLsbD_and, getLsbD_reservedMask, BitVec.getLsbD_zero,
    Bool.and_eq_false_imp, decide_eq_false_iff_not]
  refine ⟨fun h k hlow hhigh => ?_, fun h k _ hbit hrange => ?_⟩
  · by_contra hbit
    exact h k (by omega) (by simpa using hbit) ⟨hlow, hhigh⟩
  · rw [h k hrange.1 hrange.2] at hbit
    cases hbit

/-- R88: with bit 16 set, a word is a TRANSMIT. -/
theorem decodeCommand_of_transmit {w : CommandWord} (h : w.getLsbD 16 = true) :
    decodeCommand w = .ok (.transmit (w.extractLsb' 8 8) (w.extractLsb' 0 8)) := by
  rw [decodeCommand, if_pos ((and_formatMask_iff w).mpr h)]

/-- R87: with bits 16..5 clear, an ENCODE. -/
theorem decodeCommand_of_encode {w : CommandWord} (h : ∀ k, 5 ≤ k → k ≤ 16 → w.getLsbD k = false) :
    decodeCommand w = .ok (.encode (w.extractLsb' 0 4).toNat (w.getLsbD 4)) := by
  have hformat : ¬ w &&& 0x10000#17 = 0x10000#17 := by
    rw [and_formatMask_iff, h 16 (by decide) (by decide)]
    decide
  rw [decodeCommand, if_neg hformat, if_pos ((and_reservedMask_iff w).mpr h)]

/-- R93: with bit 16 clear and some bit of 15..5 set, nothing. -/
theorem decodeCommand_of_reserved {w : CommandWord} (hformat : w.getLsbD 16 = false)
    (h : ∃ k, 5 ≤ k ∧ k ≤ 15 ∧ w.getLsbD k = true) : decodeCommand w = .error .reservedEncoding := by
  obtain ⟨k, hlow, hhigh, hbit⟩ := h
  have hformat' : ¬ w &&& 0x10000#17 = 0x10000#17 := by
    rw [and_formatMask_iff, hformat]
    decide
  have hreserved : ¬ w &&& 0x1FFE0#17 = 0#17 := fun hzero => by
    rw [(and_reservedMask_iff w).mp hzero k hlow (by omega)] at hbit
    cases hbit
  rw [decodeCommand, if_neg hformat', if_neg hreserved]

/-- Every command word is of one of the three kinds. -/
theorem commandWord_kinds (w : CommandWord) :
    w.getLsbD 16 = true ∨ (∀ k, 5 ≤ k → k ≤ 16 → w.getLsbD k = false) ∨
      w.getLsbD 16 = false ∧ ∃ k, 5 ≤ k ∧ k ≤ 15 ∧ w.getLsbD k = true := by
  cases hformat : w.getLsbD 16 with
  | true => exact .inl rfl
  | false =>
    by_cases h : ∃ k, 5 ≤ k ∧ k ≤ 15 ∧ w.getLsbD k = true
    · exact .inr (.inr ⟨rfl, h⟩)
    · refine .inr (.inl fun k hlow hhigh => ?_)
      by_contra hbit
      obtain rfl | hlt : k = 16 ∨ k ≤ 15 := by omega
      · exact hbit hformat
      · exact h ⟨k, hlow, hlt, by simpa using hbit⟩

/-! ### The encoder after the decoder -/

/-- R88: a format-T word is put together again from its two operands. -/
theorem encodeT_extract {w : CommandWord} (h : w.getLsbD 16 = true) :
    encodeT (w.extractLsb' 8 8) (w.extractLsb' 0 8) = w := by
  refine BitVec.eq_of_getLsbD_eq fun k hk => ?_
  rw [encodeT_getLsbD, BitVec.getLsbD_extractLsb', BitVec.getLsbD_extractLsb']
  by_cases hlow : k < 8
  · simp [hlow]
  by_cases hhigh : k < 16
  · have hindex : 8 + (k - 8) = k := by omega
    have hwidth : k - 8 < 8 := by omega
    simp [hlow, hhigh, hindex, hwidth]
  · obtain rfl : k = 16 := by omega
    simp [h]

/-- R87: a format-E word is put together again from its digit and its point. -/
theorem encodeE_extract {w : CommandWord} (h : ∀ k, 5 ≤ k → k ≤ 16 → w.getLsbD k = false) :
    encodeE (w.extractLsb' 0 4).toNat (w.getLsbD 4) = w := by
  refine BitVec.eq_of_getLsbD_eq fun k hk => ?_
  rw [encodeE_getLsbD, BitVec.testBit_toNat, BitVec.getLsbD_extractLsb']
  by_cases hdigit : k < 4
  · simp [hdigit]
  by_cases hpoint : k = 4
  · simp [hpoint]
  · simp [hdigit, hpoint, h k (by omega) (by omega)]

/-- One command word, one meaning. -/
theorem encode_of_decodeCommand {w : CommandWord} {i : Instr} (h : decodeCommand w = .ok i) :
    i.wellFormed = true ∧ encode i = .command w := by
  obtain htransmit | hencode | ⟨hformat, hreserved⟩ := commandWord_kinds w
  · rw [decodeCommand_of_transmit htransmit] at h
    cases h
    exact ⟨rfl, congrArg Encoded.command (encodeT_extract htransmit)⟩
  · rw [decodeCommand_of_encode hencode] at h
    cases h
    exact ⟨decide_eq_true (w.extractLsb' 0 4).isLt, congrArg Encoded.command (encodeE_extract hencode)⟩
  · rw [decodeCommand_of_reserved hformat hreserved] at h
    cases h

/-- One event code, one meaning. -/
theorem encode_of_decodeEvent {c : EventCode} {i : Instr} (h : decodeEvent c = .ok i) :
    i.wellFormed = true ∧ encode i = .event c := by
  have hall : ∀ c : EventCode, (decodeEvent c).toOption.all
      (fun i => i.wellFormed && encode i == .event c) = true := by decide
  simpa [h, Except.toOption] using hall c

/-! ### The statements -/

/-- Settles O2: per row of the table, the decoder undoes the encoder. -/
theorem decodeEncodeAgree : Obligations.DecodeEncodeAgree := by
  intro i hwf
  cases i with
  | encode digit dp => exact decodeCommand_encodeE digit (of_decide_eq_true hwf) dp
  | transmit segments digitSelect => exact decodeCommand_encodeT segments digitSelect
  | dataLo => rfl
  | dataHi => rfl
  | clkLo => rfl
  | clkHi => rfl
  | latchLo => rfl
  | latchHi => rfl

/-- Settles O3: the encoder undoes the decoder, for the words of either format. -/
theorem encodeDecodeAgree : Obligations.EncodeDecodeAgree := by
  intro e i h
  cases e with
  | command w => exact encode_of_decodeCommand h
  | event c => exact encode_of_decodeEvent h

/-- Settles O4: of the three kinds of command word exactly the third is rejected, and of the eight codes the last two. -/
theorem reservedEncodingsRefused : Obligations.ReservedEncodingsRefused := by
  refine ⟨fun w => ⟨fun h => ?_, fun ⟨hformat, hreserved⟩ => decodeCommand_of_reserved hformat hreserved⟩, by decide,
    fun e s h => perform_error h s⟩
  change decodeCommand w = _ at h
  obtain htransmit | hencode | hreserved := commandWord_kinds w
  · rw [decodeCommand_of_transmit htransmit] at h
    cases h
  · rw [decodeCommand_of_encode hencode] at h
    cases h
  · exact hreserved

/-- Settles O1: the words are literal, and the decoder answers by computation. -/
theorem specWordsDecode : Obligations.SpecWordsDecode :=
  ⟨rfl, rfl, rfl, rfl, rfl, rfl, rfl, rfl, rfl, rfl, rfl, rfl, rfl, rfl, rfl, rfl⟩

end Sys2Proof.Machine

/-! PROOF. What every completed step keeps: the machine's tables, the counters' range, the lines as the place in the
frame says; and who may move `PHASE`, a line or the receiver (spec/41_transmit.md sections 3 and 4,
spec/42_receiver_and_display.md section 2, spec/44_host_clock_and_arbiter.md section 1). -/

namespace Sys2Proof.Machine

open Sys2Proof

/-! ### The main loop's steps, the counters and the block -/

/-- What a main-loop step other than a command does to the block and to ClockState: nothing, but for a counter
cleared. -/
structure KeepsBlock (s t : State) : Prop where
  phase : t.phase = s.phase
  seconds : t.seconds = s.seconds ∨ t.seconds = 0
  minutes : t.minutes = s.minutes ∨ t.minutes = 0

/-- An operation that pushes on the agenda, and at most sets the caller's byte, keeps the block. -/
theorem KeepsBlock.of_eq {s t : State} (hphase : t.phase = s.phase) (hsec : t.seconds = s.seconds)
    (hmin : t.minutes = s.minutes) : KeepsBlock s t := ⟨hphase, .inl hsec, .inl hmin⟩

/-- A main-loop operation is a command presented to the block or keeps the block. -/
theorem hostOp_cases {op : HostOp} {pins : Pins} {s t : State} (h : hostOp op pins s = .next t) :
    (∃ w, op = .command w ∧ perform (.command w) s = .next t) ∨ KeepsBlock s t := by
  cases op with
  | command w => exact .inl ⟨w, rfl, h⟩
  | pollReset => cases h; exact .inr (.of_eq rfl rfl rfl)
  | pollMode => cases h; exact .inr (.of_eq rfl rfl rfl)
  | clkReset =>
    cases h
    split
    · exact .inr ⟨rfl, .inl rfl, .inr rfl⟩
    · exact .inr ⟨rfl, .inr rfl, .inl rfl⟩
  | clearSeconds => cases h; exact .inr ⟨rfl, .inr rfl, .inl rfl⟩
  | clearMinutes => cases h; exact .inr ⟨rfl, .inl rfl, .inr rfl⟩
  | sampleAnalog => cases h; exact .inr (.of_eq rfl rfl rfl)
  | readTime => cases h; exact .inr (.of_eq rfl rfl rfl)
  | readSeconds m => cases h; exact .inr (.of_eq rfl rfl rfl)
  | readMinutes sec => cases h; exact .inr (.of_eq rfl rfl rfl)
  | render value showPoint pos =>
    cases value with
    | ofNat v => cases h; exact .inr (.of_eq rfl rfl rfl)
    | negSucc v => cases h
  | showDigit i d dp =>
    obtain ⟨_, rfl⟩ := hostShowDigit_next h
    exact .inr (.of_eq rfl rfl rfl)
  | wait ms => cases h; exact .inr (.of_eq rfl rfl rfl)

theorem hostStep_cases {pins : Pins} {s t : State} (h : hostStep pins s = .next t) :
    (∃ w rest, s.agenda = .command w :: rest ∧ perform (.command w) s.popAgenda = .next t) ∨ KeepsBlock s t := by
  cases hagenda : s.agenda with
  | nil =>
    simp only [hostStep, hagenda] at h
    cases h
    exact .inr (.of_eq rfl rfl rfl)
  | cons op rest =>
    simp only [hostStep, hagenda] at h
    obtain ⟨w, rfl, hperform⟩ | ⟨hphase, hsec, hmin⟩ := hostOp_cases h
    · exact .inl ⟨w, rest, rfl, hperform⟩
    · exact .inr ⟨hphase, hsec, hmin⟩

/-- A command word keeps the counters. -/
theorem perform_command_clock {w : CommandWord} {s t : State} (h : perform (.command w) s = .next t) :
    t.seconds = s.seconds ∧ t.minutes = s.minutes := by
  obtain ⟨b, rfl⟩ | ⟨a, b, -, rfl⟩ := perform_command_cases h
  · exact ⟨rfl, rfl⟩
  · exact ⟨rfl, rfl⟩

/-! ### The outputs over a step -/

/-- A step is the serializer's, or a power cycle, or it leaves the outputs and the machine's constants. -/
theorem step_outputs_or_powerOn {s t : State} (h : step s = .next t) :
    (∃ pins n, s.nextMove = .go pins ∧ s.phase = .event n ∧
      t = (s.takeMove.emit (frameEvent s.frame n).line (frameEvent s.frame n).level).advance) ∨
    SameOutputs s.takeMove t ∨ ∃ p, s.nextMove = .powerCycle p ∧ t = s.takeMove.powerOn p := by
  obtain ⟨-, rfl⟩ | ⟨w, i, -, hdecode, hexec⟩ | hpower | hserializer | ⟨pins, -, -, hhost⟩ := step_cases h
  case inl => exact .inr (.inl ⟨rfl, rfl, rfl, rfl, rfl, rfl, rfl, rfl, rfl, rfl, rfl, rfl⟩)
  case inr.inl =>
    exact .inr (.inl (sameOutputs_perform_command ((perform_ok (e := .command w) hdecode s.takeMove).trans hexec)))
  case inr.inr.inl => exact .inr (.inr hpower)
  case inr.inr.inr.inl => exact .inl hserializer
  case inr.inr.inr.inr => exact .inr (.inl (sameOutputs_hostStep hhost))

/-- A step but a power cycle is the serializer's, or it leaves the outputs and the machine's constants. -/
theorem step_outputs {s t : State} (h : step s = .next t) (hpower : s.nextMove.notPowerCycle = true) :
    (∃ pins n, s.nextMove = .go pins ∧ s.phase = .event n ∧
      t = (s.takeMove.emit (frameEvent s.frame n).line (frameEvent s.frame n).level).advance) ∨
    SameOutputs s.takeMove t := by
  obtain hserializer | hsame | ⟨p, hmove, -⟩ := step_outputs_or_powerOn h
  · exact .inl hserializer
  · exact .inr hsame
  · rw [hmove] at hpower
    cases hpower

/-- R11, D17: a write of the level already held is no edge. -/
theorem activeEdge_self (edge : Edge) (v : Bool) : activeEdge edge v v = false := by
  cases edge with
  | rising => exact Bool.not_and_self v
  | falling => exact Bool.and_not_self v

/-- R161 over any line write: `SR` shifts exactly on the active edge of the level that `CLOCK` gets. -/
theorem State.srAfter_eq (s : State) (l : Line) (v : Bool) :
    s.srAfter l v =
      if activeEdge s.rxEdge s.clock (s.emit l v).clock = true then s.sr.extractLsb' 0 15 ++ BitVec.ofBool s.data
      else s.sr := by
  by_cases hl : l = .clock
  · subst hl
    exact s.srAfter_clock v
  · rw [s.srAfter_of_ne_clock v hl, State.emit_clock, if_neg hl, activeEdge_self, if_neg Bool.false_ne_true]

/-- R163 over any line write: `Q` takes `SR` exactly on a rising edge of the level that `LATCH` gets. -/
theorem State.qAfter_eq (s : State) (l : Line) (v : Bool) :
    s.qAfter l v = if risingEdge s.latch (s.emit l v).latch = true then s.sr else s.q := by
  by_cases hl : l = .latch
  · subst hl
    exact s.qAfter_latch v
  · have hself : risingEdge s.latch s.latch = false := activeEdge_self .rising s.latch
    rw [s.qAfter_of_ne_latch v hl, State.emit_latch, if_neg hl, hself, if_neg Bool.false_ne_true]

/-! ### The counters over a step -/

/-- R204: TICK keeps the range. -/
theorem State.ClockWf.tick {s : State} (h : s.ClockWf) : s.tick.ClockWf := by
  obtain ⟨hsec, hmin⟩ := h
  simp only [State.ClockWf, State.tick_seconds, State.tick_minutes]
  refine ⟨?_, ?_⟩
  · split
    · exact Nat.zero_le _
    · omega
  · split
    · split
      · exact Nat.zero_le _
      · omega
    · exact hmin

theorem State.ClockWf.of_keepsBlock {s t : State} (h : s.ClockWf) (hkeeps : KeepsBlock s t) : t.ClockWf := by
  obtain ⟨hsec, hmin⟩ := h
  obtain ⟨-, hsec', hmin'⟩ := hkeeps
  exact ⟨by omega, by omega⟩

theorem State.ClockWf.of_perform {w : CommandWord} {s t : State} (h : s.ClockWf)
    (hperform : perform (.command w) s = .next t) : t.ClockWf := by
  obtain ⟨hsec, hmin⟩ := perform_command_clock hperform
  rwa [State.ClockWf, hsec, hmin]

/-- R204: every step keeps the counters' range. -/
theorem State.ClockWf.step {s t : State} (h : s.ClockWf) (hstep : step s = .next t) : t.ClockWf := by
  obtain ⟨-, rfl⟩ | ⟨w, i, -, hdecode, hexec⟩ | ⟨p, -, rfl⟩ | ⟨pins, n, -, -, rfl⟩ | ⟨pins, -, -, hhost⟩ :=
    step_cases hstep
  case inl => exact State.ClockWf.tick (s := s.takeMove) h
  case inr.inl =>
    exact State.ClockWf.of_perform (s := s.takeMove) h ((perform_ok (e := .command w) hdecode s.takeMove).trans hexec)
  case inr.inr.inl => exact ⟨Nat.zero_le _, Nat.zero_le _⟩
  case inr.inr.inr.inl => exact h
  case inr.inr.inr.inr =>
    obtain ⟨w, rest, -, hperform⟩ | hkeeps := hostStep_cases hhost
    · exact State.ClockWf.of_perform (s := s.takeMove.popAgenda) h hperform
    · exact State.ClockWf.of_keepsBlock (s := s.takeMove) h hkeeps

/-! ### The lines and the place in the frame -/

/-- Between frames, or with a frame accepted and not begun, `FrameWf` speaks of the levels the last frame left. -/
theorem frameWf_iff_of_start {s : State} (hphase : s.phase = .idle ∨ s.phase = .event 0) :
    s.FrameWf ↔ (s.trace ≠ [] → s.clock = false ∧ s.latch = true) := by
  obtain hidle | hfirst := hphase
  · simp only [State.FrameWf, hidle]
  · simp [State.FrameWf, hfirst]

/-- Inside a frame it speaks of the levels the frame's own writes left. -/
theorem frameWf_iff_of_inside {s : State} {n : Nat} (h : n < 50) (hphase : s.phase = .event ⟨n, h⟩) (hpos : 1 ≤ n) :
    s.FrameWf ↔ s.latch = false ∧
      (3 ≤ n → n % 3 = 0 → s.clock = true) ∧
      (4 ≤ n → n % 3 ≠ 0 → s.clock = false) ∧
      (n % 3 = 2 → s.data = s.frame.getLsbD (15 - (n - 2) / 3)) ∧
      (3 ≤ n → n % 3 = 0 → s.data = s.frame.getLsbD (15 - (n - 3) / 3)) := by
  have hne : n ≠ 0 := by omega
  simp only [State.FrameWf, hphase, hne, hpos, false_implies, true_implies, true_and]

theorem State.FrameWf.latch_low {s : State} {n : Fin 50} (hf : s.FrameWf) (hphase : s.phase = .event n)
    (hpos : 1 ≤ n.val) : s.latch = false := by
  obtain ⟨hlatch, -⟩ := (frameWf_iff_of_inside n.isLt hphase hpos).mp hf
  exact hlatch

/-- R139: the bit set on `DATA` at index `1 + 3k` is still there at index `2 + 3k`. -/
theorem State.FrameWf.data_bit {s : State} {n : Fin 50} (hf : s.FrameWf) (hphase : s.phase = .event n) {k : Nat}
    (hn : n.val = 2 + 3 * k) : s.data = s.frame.getLsbD (15 - k) := by
  obtain ⟨-, -, -, hdata, -⟩ := (frameWf_iff_of_inside n.isLt hphase (by omega)).mp hf
  have hindex : (n.val - 2) / 3 = k := by omega
  rw [hdata (by omega), hindex]

/-- The place in a frame that an index names: its two ends, or one of the three writes of pulse `k`. -/
theorem frameIndex_cases {n : Nat} (h : n < 50) :
    n = 0 ∨ n = 49 ∨ ∃ k, k < 16 ∧ (n = 1 + 3 * k ∨ n = 2 + 3 * k ∨ n = 3 + 3 * k) := by
  by_cases hfirst : n = 0
  · exact .inl hfirst
  by_cases hlast : n = 49
  · exact .inr (.inl hlast)
  · exact .inr (.inr ⟨(n - 1) / 3, by omega, by omega⟩)

/-- A write that takes `PHASE` to the next index of the same frame. -/
theorem emit_advance_phase {s : State} {n : Fin 50} (hphase : s.phase = .event n) (l : Line) (v : Bool)
    (h : n.val + 1 < 50) : (s.emit l v).advance.phase = .event ⟨n.val + 1, h⟩ := by
  rw [State.advance_phase, State.emit_phase, hphase, Phase.advanced_event_lt n h]

/-- R139, R146, R147: after each write of a frame the lines are as the next index says. -/
theorem State.FrameWf.serializer {s : State} {n : Fin 50} (hf : s.FrameWf) (hphase : s.phase = .event n) :
    (s.emit (frameEvent s.frame n).line (frameEvent s.frame n).level).advance.FrameWf := by
  have hnext {l : Line} {v : Bool} (h : n.val + 1 < 50) :=
    frameWf_iff_of_inside h (emit_advance_phase hphase l v h) (Nat.le_add_left 1 n.val)
  obtain hfirst | hlast | ⟨k, hk, hdata | hhigh | hlow⟩ := frameIndex_cases n.isLt
  · rw [frameEvent_first _ _ hfirst]
    exact (hnext (by omega)).mpr ⟨rfl, by omega, by omega, by omega, by omega⟩
  · rw [frameEvent_last _ _ hlast]
    have hidle : (s.emit .latch true).advance.phase = .idle := by
      rw [State.advance_phase, State.emit_phase, hphase, show n = 49 from Fin.ext hlast, Phase.advanced_event_last]
    exact (frameWf_iff_of_start (.inl hidle)).mpr fun _ => ⟨hf.clock_low hphase (by omega) (by omega), rfl⟩
  · rw [frameEvent_data _ _ k hk hdata]
    refine (hnext (by omega)).mpr ⟨hf.latch_low hphase (by omega), by omega,
      fun _ _ => hf.clock_low hphase (by omega) (by omega), fun _ => ?_, by omega⟩
    rw [show (n.val + 1 - 2) / 3 = k by omega]
    rfl
  · rw [frameEvent_clockHigh _ _ k hk hhigh]
    refine (hnext (by omega)).mpr ⟨hf.latch_low hphase (by omega), fun _ _ => rfl, by omega, by omega, fun _ _ => ?_⟩
    rw [show (n.val + 1 - 3) / 3 = k by omega]
    exact hf.data_bit hphase hhigh
  · rw [frameEvent_clockLow _ _ k hk hlow]
    exact (hnext (by omega)).mpr ⟨hf.latch_low hphase (by omega), by omega, fun _ _ => rfl, by omega, by omega⟩

/-- A step from the idle block that leaves the outputs and at most accepts a frame keeps the lines as they fit. -/
theorem State.FrameWf.of_start {s t : State} (hf : s.FrameWf) (hs : s.phase = .idle)
    (ht : t.phase = .idle ∨ t.phase = .event 0) (hsame : SameOutputs s t) : t.FrameWf := by
  rw [frameWf_iff_of_start ht, hsame.trace, hsame.clock, hsame.latch]
  exact (frameWf_iff_of_start (.inl hs)).mp hf

theorem State.FrameWf.of_perform {w : CommandWord} {s t : State} (hf : s.FrameWf)
    (hperform : perform (.command w) s = .next t) : t.FrameWf := by
  obtain ⟨b, rfl⟩ | ⟨a, b, hidle, rfl⟩ := perform_command_cases hperform
  · exact hf
  · exact hf.of_start hidle (.inr rfl) (sameOutputs_perform_command hperform)

/-- Every step keeps the lines as the place in the frame says. -/
theorem State.FrameWf.step {s t : State} (hf : s.FrameWf) (hstep : step s = .next t) : t.FrameWf := by
  obtain ⟨-, rfl⟩ | ⟨w, i, -, hdecode, hexec⟩ | ⟨p, -, rfl⟩ | ⟨pins, n, -, hphase, rfl⟩ | ⟨pins, -, hidle, hhost⟩ :=
    step_cases hstep
  case inl => exact hf
  case inr.inl =>
    exact State.FrameWf.of_perform (s := s.takeMove) hf ((perform_ok (e := .command w) hdecode s.takeMove).trans hexec)
  case inr.inr.inl => exact (frameWf_iff_of_start (.inl rfl)).mpr fun hne => absurd rfl hne
  case inr.inr.inr.inl => exact State.FrameWf.serializer (s := s.takeMove) hf hphase
  case inr.inr.inr.inr =>
    obtain ⟨w, rest, -, hperform⟩ | hkeeps := hostStep_cases hhost
    · exact State.FrameWf.of_perform (s := s.takeMove.popAgenda) hf hperform
    · exact State.FrameWf.of_start (s := s.takeMove) hf hidle (.inl (hkeeps.phase.trans hidle))
        (sameOutputs_hostStep hhost)

/-! ### The statements -/

/-- Settles O54: the serializer, the other agents and a power cycle alike leave the tables and the parameters. -/
theorem romsConstant : Obligations.RomsConstant := by
  intro s t hstep
  obtain ⟨pins, n, -, -, rfl⟩ | hsame | ⟨p, -, rfl⟩ := step_outputs_or_powerOn hstep
  · exact ⟨rfl, rfl, rfl, rfl⟩
  · exact ⟨hsame.pattern, hsame.mask, hsame.rxEdge, hsame.scale⟩
  · exact ⟨rfl, rfl, rfl, rfl⟩

/-- Settles O52: the tables do not change, the counters stay in range, and each write leaves the lines as the next index
says. -/
theorem stepKeepsInvariant : Obligations.StepKeepsInvariant := by
  intro s t ⟨hrom, hclock, hframe⟩ hstep
  obtain ⟨hpattern, hmask, -, -⟩ := romsConstant s t hstep
  refine ⟨?_, hclock.step hstep, hframe.step hstep⟩
  rwa [State.RomWf, hpattern, hmask]

/-- Settles O27: a line write moves the receiver by the levels before and after it, and nothing else moves a level. -/
theorem receiverFollowsLines : Obligations.ReceiverFollowsLines := by
  intro s t hstep hpower
  obtain ⟨pins, n, -, -, rfl⟩ | hsame := step_outputs hstep hpower
  · exact ⟨s.takeMove.srAfter_eq _ _, s.takeMove.qAfter_eq _ _⟩
  · have hclock : t.clock = s.clock := hsame.clock
    have hlatch : t.latch = s.latch := hsame.latch
    have hself : risingEdge s.latch s.latch = false := activeEdge_self .rising s.latch
    rw [hclock, hlatch, activeEdge_self, hself]
    exact ⟨hsame.sr, hsame.q⟩

/-- Settles O28: the list is the serializer's one event, or empty. -/
theorem traceDrivesReceiver : Obligations.TraceDrivesReceiver := by
  intro s t hstep hpower
  obtain ⟨pins, n, -, -, rfl⟩ | hsame := step_outputs hstep hpower
  · exact ⟨[frameEvent s.frame n], Nat.le_refl 1, rfl, rfl, rfl, rfl, rfl, rfl⟩
  · refine ⟨[], Nat.zero_le 1, ?_, hsame.data, hsame.clock, hsame.latch, hsame.sr, hsame.q⟩
    rw [List.append_nil]
    exact hsame.trace

/-- Settles O29: the two cases are the serializer's step and every other one. -/
theorem onlySerializerWritesLines : Obligations.OnlySerializerWritesLines := by
  intro s t hstep hpower
  obtain ⟨pins, n, hmove, hphase, rfl⟩ | hsame := step_outputs hstep hpower
  · refine .inl ⟨?_, n, hphase, rfl, rfl, rfl, rfl, rfl, rfl⟩
    rw [hmove]
    rfl
  · exact .inr ⟨hsame.trace, hsame.data, hsame.clock, hsame.latch, hsame.sr, hsame.q⟩

end Sys2Proof.Machine

/-! PROOF. A run with one master completes: each operation the main loop may hold has its step, and what it pushes is
again one it may hold (spec/60_exceptions.md section 1, spec/70_reset_and_hazards.md section 3). And the transitions of
`PHASE` (spec/41_transmit.md section 3). -/

namespace Sys2Proof.Machine

open Sys2Proof

/-! ### The main loop's operations complete -/

/-- The operation completes at `s`, and what it puts on the agenda respects the caller's duties. -/
def HostOp.Completes (op : HostOp) (pins : Pins) (s : State) : Prop :=
  ∃ t ops, hostOp op pins s = .next t ∧ t.agenda = ops ++ s.agenda ∧ ∀ o ∈ ops, o.ok = true

/-- A command word that passes the caller's check is performed by an idle block and leaves the agenda. -/
theorem perform_of_commandOk {w : CommandWord} (hok : commandOk w = true) {s : State} (hidle : s.phase = .idle) :
    ∃ t, perform (.command w) s = .next t ∧ t.agenda = s.agenda := by
  cases hdecode : decodeCommand w with
  | error r =>
    rw [commandOk, hdecode] at hok
    cases hok
  | ok i =>
    rw [perform_ok (e := .command w) hdecode]
    obtain ⟨d, dp, rfl⟩ | ⟨a, b, rfl⟩ := decodeCommand_cases hdecode
    · rw [commandOk, hdecode] at hok
      have hdigit : d ≤ 9 := of_decide_eq_true hok
      exact ⟨_, exec_encode_of_lt s d (by omega) dp, rfl⟩
    · exact ⟨_, exec_transmit_of_idle s a b hidle, rfl⟩

/-- The word of a TRANSMIT passes the check, whatever its operands. -/
theorem commandOk_encodeT (a b : Byte) : commandOk (encodeT a b) = true := by
  rw [commandOk, decodeCommand_encodeT]

/-- R182: a natural is not negative. -/
theorem render_ok (v : Nat) (showPoint : Bool) (pos : Int) : (HostOp.render v showPoint pos).ok = true :=
  decide_eq_true (p := (0 : Int) ≤ v) (Int.natCast_nonneg v)

theorem showDigits_ok (v : Nat) (showPoint : Bool) (pos : Int) : ∀ o ∈ showDigits v showPoint pos, o.ok = true := by
  intro o ho
  obtain ⟨i, -, rfl⟩ := List.mem_map.mp ho
  exact decide_eq_true (Nat.le_of_lt_succ (digitAt_lt v i))

theorem hostOp_clkReset_minutes {p : Pins} (h : p.minutesFirst = true) (s : State) :
    hostOp .clkReset p s = .next (s.clearMinutes.push [.clearSeconds]) := by
  simp [hostOp, hostClkReset, h]

theorem hostOp_clkReset_seconds {p : Pins} (h : p.minutesFirst = false) (s : State) :
    hostOp .clkReset p s = .next (s.clearSeconds.push [.clearMinutes]) := by
  simp [hostOp, hostClkReset, h]

/-- Every operation that respects the caller's duties completes at an idle block with its counters in range. -/
theorem hostOp_completes {op : HostOp} (hok : op.ok = true) (pins : Pins) {s : State} (hidle : s.phase = .idle)
    (hclock : s.ClockWf) : op.Completes pins s := by
  obtain ⟨hsec, hmin⟩ := hclock
  cases op with
  | pollReset =>
    refine ⟨_, _, rfl, rfl, ?_⟩
    split
    · decide
    · decide
  | pollMode =>
    refine ⟨_, _, rfl, rfl, ?_⟩
    split
    · decide
    · decide
  | clkReset =>
    cases horder : pins.minutesFirst with
    | true => exact ⟨_, _, hostOp_clkReset_minutes horder s, rfl, by decide⟩
    | false => exact ⟨_, _, hostOp_clkReset_seconds horder s, rfl, by decide⟩
  | clearSeconds => exact ⟨_, [], rfl, rfl, by decide⟩
  | clearMinutes => exact ⟨_, [], rfl, rfl, by decide⟩
  | sampleAnalog => exact ⟨_, _, rfl, rfl, List.forall_mem_singleton.mpr (render_ok ..)⟩
  | readTime =>
    refine ⟨_, _, rfl, rfl, ?_⟩
    split
    · simpa [HostOp.ok] using hmin
    · simpa [HostOp.ok] using hsec
  | readSeconds m => exact ⟨_, _, rfl, rfl, List.forall_mem_singleton.mpr (render_ok ..)⟩
  | readMinutes sec => exact ⟨_, _, rfl, rfl, List.forall_mem_singleton.mpr (render_ok ..)⟩
  | render value showPoint pos =>
    obtain ⟨v, rfl⟩ := Int.eq_ofNat_of_zero_le (of_decide_eq_true hok)
    exact ⟨_, _, rfl, rfl, showDigits_ok v showPoint pos⟩
  | showDigit i d dp =>
    have hdigit : d ≤ 9 := of_decide_eq_true hok
    refine ⟨_, _, hostShowDigit_of_lt i d (by omega) dp s, rfl, ?_⟩
    simp [HostOp.ok, commandOk_encodeT]
  | wait ms => exact ⟨_, [], rfl, rfl, by decide⟩
  | command w =>
    obtain ⟨t, hperform, hagenda⟩ := perform_of_commandOk hok hidle
    exact ⟨t, [], hperform, hagenda, by decide⟩

/-- A main-loop step completes and keeps the caller's duties. -/
theorem hostStep_completes (pins : Pins) {s : State} (hidle : s.phase = .idle) (hclock : s.ClockWf)
    (hagenda : s.AgendaOk) : ∃ t, hostStep pins s = .next t ∧ t.AgendaOk := by
  cases hops : s.agenda with
  | nil => exact ⟨s, by simp only [hostStep, hops], hagenda⟩
  | cons op rest =>
    rw [hostStep_of_agenda pins hops]
    have hmem : ∀ o ∈ op :: rest, o.ok = true := by rwa [← hops]
    obtain ⟨t, ops, hstep, hpush, hok⟩ :=
      hostOp_completes (s := { s with agenda := rest }) (hmem op List.mem_cons_self) pins hidle hclock
    refine ⟨t, hstep, fun o ho => ?_⟩
    rw [hpush] at ho
    obtain hnew | hold := List.mem_append.mp ho
    · exact hok o hnew
    · exact hmem o (List.mem_cons_of_mem _ hold)

/-! ### One master -/

/-- D29: with no strobe listed the coming move is none: a free draw never is. -/
theorem State.OneMaster.nextMove_notStrobe {s : State} (h : s.OneMaster) : s.nextMove.notStrobe = true := by
  cases hinputs : s.inputs with
  | cons m ms =>
    rw [State.nextMove_cons hinputs]
    exact h m (by rw [hinputs]; exact List.mem_cons_self)
  | nil =>
    have hfree : s.nextMove = freeMove s.draws := by simp [State.nextMove, hinputs]
    obtain htick | ⟨pins, hgo⟩ := freeMove_cases s.draws
    · rw [hfree, htick]; rfl
    · rw [hfree, hgo]; rfl

theorem State.OneMaster.takeMove {s : State} (h : s.OneMaster) : s.takeMove.OneMaster :=
  fun m hm => h m (List.mem_of_mem_tail hm)

/-- No step lists a move. -/
theorem step_inputs {s t : State} (h : step s = .next t) : t.inputs = s.inputs.tail := by
  obtain ⟨pins, n, -, -, rfl⟩ | hsame | ⟨p, -, rfl⟩ := step_outputs_or_powerOn h
  · rfl
  · exact hsame.inputs
  · rfl

/-- With one master every step completes and keeps the caller's duties. -/
theorem step_completes {s : State} (hclock : s.ClockWf) (hagenda : s.AgendaOk) (hmaster : s.OneMaster) :
    ∃ t, step s = .next t ∧ t.AgendaOk := by
  cases hmove : s.nextMove with
  | tick => exact ⟨_, step_tick hmove, hagenda⟩
  | strobe w =>
    have hnone := hmaster.nextMove_notStrobe
    rw [hmove] at hnone
    cases hnone
  | powerCycle p => exact ⟨_, step_powerCycle hmove, by simp [State.AgendaOk, HostOp.ok]⟩
  | go pins =>
    cases hphase : s.phase with
    | event n => exact ⟨_, step_serializer hmove hphase, hagenda⟩
    | idle =>
      rw [step_host hmove hphase]
      exact hostStep_completes (s := s.takeMove) pins hphase hclock hagenda

/-- Settles O53: the step completes, and the counters, the duties and the one master are each kept by what the step can
do. -/
theorem oneMasterNeverRefused : Obligations.OneMasterNeverRefused := by
  intro s hclock hagenda hmaster
  obtain ⟨t, hstep, hagenda'⟩ := step_completes hclock hagenda hmaster
  refine ⟨t, hstep, hclock.step hstep, hagenda', ?_⟩
  rw [State.OneMaster, step_inputs hstep]
  exact hmaster.takeMove

/-! ### `PHASE` -/

/-- A command word moves `PHASE` only by acceptance of the TRANSMIT it spells. -/
theorem perform_command_phase {w : CommandWord} {s t : State} (h : perform (.command w) s = .next t) :
    t.phase = s.phase ∨
      s.phase = .idle ∧ t.phase = .event 0 ∧
        ∃ a b, decode (.command w) = .ok (.transmit a b) ∧ t.seg = a ∧ t.sel = b := by
  obtain ⟨i, hdecode, hexec⟩ := perform_next h
  obtain ⟨d, dp, rfl⟩ | ⟨a, b, rfl⟩ := decodeCommand_cases hdecode
  · obtain ⟨-, rfl⟩ := exec_encode_next hexec
    exact .inl rfl
  · cases hphase : s.phase with
    | idle =>
      rw [exec_transmit_of_idle s a b hphase] at hexec
      cases hexec
      exact .inr ⟨rfl, rfl, a, b, hdecode, rfl, rfl⟩
    | event n =>
      rw [exec_transmit_of_event s a b hphase] at hexec
      cases hexec

/-- What a step but a power cycle does to `PHASE`: the serializer's step advances it, a TRANSMIT presented to the idle
block is accepted, and nothing else moves it. -/
theorem step_phase {s t : State} (h : step s = .next t) (hpower : s.nextMove.notPowerCycle = true) :
    (s.nextMove.isGo = true ∧ ∃ n, s.phase = .event n ∧ t.phase = Phase.after n) ∨
    (s.phase = .idle ∧ t.phase = .event 0 ∧ ∃ (w : CommandWord) (a b : Byte), s.presents w ∧
      decode (.command w) = .ok (.transmit a b) ∧ t.seg = a ∧ t.sel = b) ∨
    (t.phase = s.phase ∧ (s.nextMove.isGo = true → s.phase = .idle)) := by
  obtain ⟨hmove, rfl⟩ | ⟨w, i, hmove, hdecode, hexec⟩ | ⟨p, hmove, -⟩ | ⟨pins, n, hmove, hphase, rfl⟩ |
    ⟨pins, hmove, hidle, hhost⟩ := step_cases h
  case inl => exact .inr (.inr ⟨rfl, fun hgo => by rw [hmove] at hgo; cases hgo⟩)
  case inr.inl =>
    obtain hsame | ⟨hidle, hzero, a, b, hcommand⟩ :=
      perform_command_phase ((perform_ok (e := .command w) hdecode s.takeMove).trans hexec)
    · exact .inr (.inr ⟨hsame, fun hgo => by rw [hmove] at hgo; cases hgo⟩)
    · exact .inr (.inl ⟨hidle, hzero, w, a, b, .inl hmove, hcommand⟩)
  case inr.inr.inl =>
    rw [hmove] at hpower
    cases hpower
  case inr.inr.inr.inl =>
    have hgo : s.nextMove.isGo = true := by rw [hmove]; rfl
    refine .inl ⟨hgo, n, hphase, ?_⟩
    rw [State.advance_phase, State.emit_phase, State.takeMove_phase, hphase]
    rfl
  case inr.inr.inr.inr =>
    have hgo : s.nextMove.isGo = true := by rw [hmove]; rfl
    obtain ⟨w, rest, hagenda, hperform⟩ | hkeeps := hostStep_cases hhost
    · obtain hsame | ⟨-, hzero, a, b, hcommand⟩ := perform_command_phase hperform
      · exact .inr (.inr ⟨hsame, fun _ => hidle⟩)
      · exact .inr (.inl ⟨hidle, hzero, w, a, b, .inr ⟨hgo, rest, hagenda⟩, hcommand⟩)
    · exact .inr (.inr ⟨hkeeps.phase, fun _ => hidle⟩)

/-- R140: the index after `n`, as the statement below has it. -/
theorem Phase.after_cases (n : Fin 50) :
    (∃ h : n.val + 1 < 50, Phase.after n = .event ⟨n.val + 1, h⟩) ∨ (n.val = 49 ∧ Phase.after n = .idle) := by
  by_cases h : n.val + 1 < 50
  · exact .inl ⟨h, dif_pos h⟩
  · exact .inr ⟨by omega, dif_neg h⟩

/-- Settles O18: from `IDLE` only acceptance leaves, and in a frame only the serializer's step advances. -/
theorem phaseTransitions : Obligations.PhaseTransitions := by
  intro s t hstep hpower
  obtain ⟨hgo, n, hphase, hafter⟩ | ⟨hidle, haccept⟩ | ⟨hsame, hgo⟩ := step_phase hstep hpower
  · simp only [hphase, if_pos hgo, hafter]
    exact Phase.after_cases n
  · simp only [hidle]
    exact .inr haccept
  · cases hphase : s.phase with
    | idle => exact .inl (hsame.trans hphase)
    | event n =>
      have hother : ¬ s.nextMove.isGo = true := fun h => by
        rw [hphase] at hgo
        cases hgo h
      simp only [if_neg hother]
      exact hsame.trans hphase

/-! ### The latch micro-operations -/

/-- R135: `LATCH_LO` moves nothing in the receiver. -/
theorem State.emit_latchLow_eq (s : State) :
    s.emit .latch false = { s with latch := false, trace := s.trace ++ [⟨.latch, false⟩] } := by
  have hq : s.qAfter .latch false = s.q := by simp [s.qAfter_latch, risingEdge]
  rw [State.emit, hq]
  rfl

/-- R136: of the receiver `LATCH_HI` moves at most `Q`. -/
theorem State.emit_latchHigh_eq (s : State) :
    s.emit .latch true =
      { s with latch := true, trace := s.trace ++ [⟨.latch, true⟩], q := s.qAfter .latch true } := rfl

/-- D14, D17: `Q` takes `SR` if `LATCH` was 0, and stays if it was 1 already. -/
theorem State.qAfter_latchHigh (s : State) : s.qAfter .latch true = if s.latch = true then s.q else s.sr := by
  rw [s.qAfter_latch]
  cases s.latch with
  | false => rfl
  | true => rfl

/-- R135, R136: the two ends of a frame are its only writes of `LATCH`. -/
theorem frameIndex_of_latch {frame : Frame} {n : Nat} (hn : n < 50) (h : (frameEvent frame n).line = .latch) :
    n = 0 ∨ n = 49 := by
  obtain hfirst | hlast | ⟨k, hk, hdata | hhigh | hlow⟩ := frameIndex_cases hn
  · exact .inl hfirst
  · exact .inr hlast
  · rw [frameEvent_data _ _ k hk hdata] at h; cases h
  · rw [frameEvent_clockHigh _ _ k hk hhigh] at h; cases h
  · rw [frameEvent_clockLow _ _ k hk hlow] at h; cases h

/-- Settles O16: each latch write with its commit, the two indices that issue one, and the level of `LATCH` before
them. -/
theorem latchMicroOps : Obligations.LatchMicroOps := by
  refine ⟨fun s => ⟨_, exec_latchLo s, ?_⟩, fun s => ⟨_, exec_latchHi s, ?_, ?_, ?_⟩, ?_, ?_⟩
  · rw [State.emit_latchLow_eq]
    rfl
  · rw [State.emit_latchHigh_eq]
    rfl
  · intro hlow
    rw [State.advance_q, State.emit_q, State.qAfter_latchHigh, if_neg (by simp [hlow])]
  · intro hhigh
    rw [State.advance_q, State.emit_q, State.qAfter_latchHigh, if_pos hhigh]
  · intro s pins n hmove hphase
    exact ⟨step_latchLow hmove hphase, step_latchHigh hmove hphase, frameIndex_of_latch n.isLt⟩
  · intro s n hf hphase
    refine ⟨fun hfirst htrace => ?_, fun hlast => hf.latch_low hphase (by omega)⟩
    obtain rfl : n = 0 := Fin.ext hfirst
    obtain ⟨-, hlatch⟩ := (frameWf_iff_of_start (.inr hphase)).mp hf htrace
    exact hlatch

end Sys2Proof.Machine

/-! PROOF. Runs with ticks at any boundaries: steps that neither see the inputs nor read ClockState, chained, lead to
the same state whatever ticks are delivered between them, with ClockState advanced by the ticks; and from them the
whole frame, SHOWDIGIT and RENDER (spec/20_memory.md R65, spec/41_transmit.md R142, spec/43_render.md sections 3
and 4). -/

namespace Sys2Proof.Machine

open Sys2Proof

/-! ### Steps that leave ClockState alone -/

/-- `s` with the counters of `c` and the moves `ms` to come. -/
def State.withClockOf (s c : State) (ms : List Move) : State :=
  { s with seconds := c.seconds, minutes := c.minutes, inputs := ms }

@[simp] theorem State.withClockOf_pattern (s c : State) (ms : List Move) : (s.withClockOf c ms).pattern = s.pattern := rfl
@[simp] theorem State.withClockOf_mask (s c : State) (ms : List Move) : (s.withClockOf c ms).mask = s.mask := rfl
@[simp] theorem State.withClockOf_data (s c : State) (ms : List Move) : (s.withClockOf c ms).data = s.data := rfl
@[simp] theorem State.withClockOf_clock (s c : State) (ms : List Move) : (s.withClockOf c ms).clock = s.clock := rfl
@[simp] theorem State.withClockOf_latch (s c : State) (ms : List Move) : (s.withClockOf c ms).latch = s.latch := rfl
@[simp] theorem State.withClockOf_phase (s c : State) (ms : List Move) : (s.withClockOf c ms).phase = s.phase := rfl
@[simp] theorem State.withClockOf_trace (s c : State) (ms : List Move) : (s.withClockOf c ms).trace = s.trace := rfl
@[simp] theorem State.withClockOf_q (s c : State) (ms : List Move) : (s.withClockOf c ms).q = s.q := rfl
@[simp] theorem State.withClockOf_agenda (s c : State) (ms : List Move) : (s.withClockOf c ms).agenda = s.agenda := rfl
@[simp] theorem State.withClockOf_seconds (s c : State) (ms : List Move) : (s.withClockOf c ms).seconds = c.seconds := rfl
@[simp] theorem State.withClockOf_minutes (s c : State) (ms : List Move) : (s.withClockOf c ms).minutes = c.minutes := rfl
@[simp] theorem State.withClockOf_inputs (s c : State) (ms : List Move) : (s.withClockOf c ms).inputs = ms := rfl

/-- A step of the system's own agent leads from `s` to `t`, whatever it sees of the inputs and whatever the counters
hold, and leaves the counters. -/
def State.GoesTo (s t : State) : Prop :=
  ∀ (c : State) (pins : Pins) (ms : List Move),
    step (s.withClockOf c (.go pins :: ms)) = .next (t.withClockOf c ms)

/-- `k` such steps. -/
inductive State.Advances : Nat → State → State → Prop
  | zero (s : State) : State.Advances 0 s s
  | succ {k : Nat} {s u t : State} : s.GoesTo u → State.Advances k u t → State.Advances (k + 1) s t

theorem State.GoesTo.advances {s t : State} (h : s.GoesTo t) : State.Advances 1 s t := .succ h (.zero t)

theorem State.Advances.trans {j k : Nat} {s u t : State} (h : State.Advances j s u) (h' : State.Advances k u t) :
    State.Advances (j + k) s t := by
  induction h with
  | zero s => rwa [Nat.zero_add]
  | succ hgo _ ih =>
    rw [Nat.add_right_comm]
    exact .succ hgo (ih h')

/-- A listed tick counts and does nothing else. -/
theorem step_listed_tick (s c : State) (ms : List Move) :
    step (s.withClockOf c (.tick :: ms)) = .next (s.withClockOf c.tick ms) :=
  step_tick rfl

/-- R65, R192: however ticks are interleaved with the `k` steps, they end in the same state, and every tick counts
once. -/
theorem State.Advances.run {k : Nat} {s t : State} (h : State.Advances k s t) (c : State) (moves later : List Move)
    (hmoves : ∀ m ∈ moves, m.isGo = true ∨ m.isTick = true) (hcount : moves.countP Move.isGo = k) :
    runSteps moves.length (s.withClockOf c (moves ++ later)) =
      .next (t.withClockOf (State.ticks (moves.countP Move.isTick) c) later) := by
  induction moves generalizing k s c with
  | nil =>
    obtain rfl : 0 = k := hcount
    cases h
    rfl
  | cons m ms ih =>
    obtain ⟨hm, hms⟩ := List.forall_mem_cons.mp hmoves
    cases m with
    | tick =>
      rw [List.countP_cons_of_pos rfl]
      exact (runSteps_succ _ (step_listed_tick s c (ms ++ later))).trans (ih h c.tick hms hcount)
    | go pins =>
      cases h with
      | zero => simp [Move.isGo] at hcount
      | succ hgo hrest =>
        rw [List.countP_cons_of_pos rfl, Nat.add_right_cancel_iff] at hcount
        exact (runSteps_succ _ (hgo c pins (ms ++ later))).trans (ih hrest c hms hcount)
    | strobe w => simp [Move.isGo, Move.isTick] at hm
    | powerCycle p => simp [Move.isGo, Move.isTick] at hm

/-- The same run from a state's own counters. -/
theorem State.Advances.run_listed {k : Nat} {s t : State} (h : State.Advances k s t) (moves later : List Move)
    (hmoves : ∀ m ∈ moves, m.isGo = true ∨ m.isTick = true) (hcount : moves.countP Move.isGo = k) :
    runSteps moves.length { s with inputs := moves ++ later } =
      .next (t.withClockOf (State.ticks (moves.countP Move.isTick) s) later) :=
  h.run s moves later hmoves hcount

/-! ### Updates that a line write does not meet -/

/-- `s` with other operations to come. -/
def State.withAgenda (s : State) (ops : List HostOp) : State := { s with agenda := ops }

/-- `s` at another place of a frame. -/
def State.withPhase (s : State) (p : Phase) : State := { s with phase := p }

@[simp] theorem State.withPhase_trace (s : State) (p : Phase) : (s.withPhase p).trace = s.trace := rfl
@[simp] theorem State.withPhase_agenda (s : State) (p : Phase) : (s.withPhase p).agenda = s.agenda := rfl
@[simp] theorem State.withPhase_phase (s : State) (p : Phase) : (s.withPhase p).phase = p := rfl

/-- What commutes with one line write commutes with a list of them. -/
theorem State.emitAll_comm (f : State → State) (h : ∀ s l v, f (s.emit l v) = (f s).emit l v) (s : State)
    (es : List Event) : f (s.emitAll es) = (f s).emitAll es := by
  induction es generalizing s with
  | nil => rfl
  | cons e es ih => rw [State.emitAll_cons, State.emitAll_cons, ih, h]

theorem State.emitAll_withPhase (s : State) (p : Phase) (es : List Event) :
    (s.emitAll es).withPhase p = (s.withPhase p).emitAll es :=
  State.emitAll_comm (·.withPhase p) (fun _ _ _ => rfl) s es

theorem State.emitAll_accept (s : State) (a b : Byte) (es : List Event) :
    (s.emitAll es).accept a b = (s.accept a b).emitAll es :=
  State.emitAll_comm (·.accept a b) (fun _ _ _ => rfl) s es

/-- TRANSMIT as one operation (R130): acceptance, the events, the block idle again. -/
theorem State.transmitWhole_eq (s : State) (a b : Byte) :
    s.transmitWhole a b = ((s.accept a b).emitAll (frameEvents (frameOf a b))).withPhase .idle := by
  rw [← State.emitAll_accept]
  rfl

theorem State.transmitWhole_withAgenda (s : State) (a b : Byte) (ops : List HostOp) :
    (s.transmitWhole a b).withAgenda ops = (s.withAgenda ops).transmitWhole a b := by
  simp only [State.transmitWhole_eq]
  exact congrArg (State.withPhase · .idle) (State.emitAll_comm (·.withAgenda ops) (fun _ _ _ => rfl) _ _)

theorem State.transmitWhole_withClockOf (s c : State) (a b : Byte) (ms : List Move) :
    (s.transmitWhole a b).withClockOf c ms = (s.withClockOf c ms).transmitWhole a b := by
  simp only [State.transmitWhole_eq]
  exact congrArg (State.withPhase · .idle) (State.emitAll_comm (·.withClockOf c ms) (fun _ _ _ => rfl) _ _)

theorem State.transmitWhole_agenda (s : State) (a b : Byte) : (s.transmitWhole a b).agenda = s.agenda :=
  State.emitAll_keeps (·.agenda) (fun _ _ _ => rfl) s _

theorem State.transmitWhole_trace (s : State) (a b : Byte) :
    (s.transmitWhole a b).trace = s.trace ++ frameEvents (frameOf a b) :=
  State.emitAll_trace s _

/-- R142, the levels after a frame. -/
theorem State.transmitWhole_levels (s : State) (a b : Byte) :
    (s.transmitWhole a b).data = b.getLsbD 0 ∧ (s.transmitWhole a b).clock = false ∧
      (s.transmitWhole a b).latch = true :=
  ⟨frameOf_getLsbD a b 0, rfl, rfl⟩

/-! ### The serializer's steps -/

/-- R65: the serializer's step neither sees the inputs nor reads ClockState. -/
theorem goesTo_serializer {s : State} {n : Fin 50} (hphase : s.phase = .event n) :
    s.GoesTo (s.emit (frameEvent s.frame n).line (frameEvent s.frame n).level).advance := fun c pins ms =>
  step_serializer (s := s.withClockOf c (.go pins :: ms)) rfl hphase

/-- R139, R140: from index `n` the remaining steps emit the remaining events and end idle. -/
theorem advances_eventsFrom (k n : Nat) (hn : n + k = 49) (s : State) (hphase : s.phase = .event ⟨n, by omega⟩) :
    State.Advances (k + 1) s ((s.emitAll (eventsFrom s.frame n)).withPhase .idle) := by
  have hgo := goesTo_serializer hphase
  induction k generalizing n s with
  | zero =>
    obtain rfl : n = 49 := hn
    have hidle : s.phase.advanced = .idle := by rw [hphase]; rfl
    rw [State.advance, State.emit_phase, hidle] at hgo
    exact hgo.advances
  | succ k ih =>
    have hnext := emit_advance_phase hphase (frameEvent s.frame n).line (frameEvent s.frame n).level
      (by simp only; omega)
    have hrest := ih (n + 1) (by omega) _ hnext (goesTo_serializer hnext)
    rw [eventsFrom_succ s.frame n (by omega), State.emitAll_cons, State.emitAll_withPhase]
    rw [State.emitAll_withPhase] at hrest
    exact .succ hgo hrest

/-- R142: an accepted frame is fifty steps, its events, and then the idle block. -/
theorem advances_frame {s : State} (hphase : s.phase = .event 0) :
    State.Advances 50 s ((s.emitAll (frameEvents s.frame)).withPhase .idle) :=
  advances_eventsFrom 49 0 rfl s hphase

/-! ### The main loop's steps -/

/-- The main loop's step at a listed boundary. -/
theorem step_listed_hostOp {s : State} {op : HostOp} {rest : List HostOp} (hidle : s.phase = .idle)
    (hagenda : s.agenda = op :: rest) (pins : Pins) (ms : List Move) :
    step { s with inputs := .go pins :: ms } = hostOp op pins { s with agenda := rest, inputs := ms } :=
  (step_host (s := { s with inputs := .go pins :: ms }) rfl hidle).trans (hostStep_of_agenda pins hagenda)

/-- An operation that sees neither the inputs nor ClockState. -/
theorem goesTo_hostOp {s t : State} {op : HostOp} {rest : List HostOp} (hidle : s.phase = .idle)
    (hagenda : s.agenda = op :: rest)
    (hop : ∀ (c : State) (pins : Pins) (ms : List Move),
      hostOp op pins ((s.withAgenda rest).withClockOf c ms) = .next (t.withClockOf c ms)) : s.GoesTo t :=
  fun c pins ms => (step_listed_hostOp (s := s.withClockOf c []) hidle hagenda pins ms).trans (hop c pins ms)

/-- R150: a TRANSMIT on the agenda of an idle block is the whole operation, in 51 steps. -/
theorem advances_transmit {s : State} {a b : Byte} {rest : List HostOp} (hidle : s.phase = .idle)
    (hagenda : s.agenda = .command (encodeT a b) :: rest) :
    State.Advances 51 s ((s.withAgenda rest).transmitWhole a b) := by
  have haccept : s.GoesTo ((s.withAgenda rest).accept a b) := goesTo_hostOp hidle hagenda fun c pins ms =>
    (perform_ok (e := .command (encodeT a b)) (decodeCommand_encodeT a b) _).trans (exec_transmit_of_idle _ a b hidle)
  rw [State.transmitWhole_eq]
  exact .succ haccept (advances_frame rfl)

/-- SHOWDIGIT as a whole (R183): the byte at its caller, then the whole TRANSMIT of it. -/
def State.showWhole (s : State) (b m : Byte) : State := (s.setSegOut b).transmitWhole b m

/-- R183: SHOWDIGIT is its ENCODE, the whole TRANSMIT and a WAIT, in 53 steps. -/
theorem advances_showDigit {s : State} {i : Fin 4} {d : Nat} (h : d < 10) {dp : Bool} {rest : List HostOp}
    (hidle : s.phase = .idle) (hagenda : s.agenda = .showDigit i d dp :: rest) :
    State.Advances 53 s ((s.withAgenda rest).showWhole (gateDp s.pattern[d] dp) s.mask[i]) := by
  generalize hbyte : gateDp s.pattern[d] dp = byte
  have hencode : s.GoesTo
      ((s.setSegOut byte).withAgenda (.command (encodeT byte s.mask[i]) :: .wait 2 :: rest)) :=
    goesTo_hostOp hidle hagenda fun c pins ms => hbyte ▸ hostShowDigit_of_lt i d h dp _
  have htransmit := advances_transmit (s := (s.setSegOut byte).withAgenda _) (a := byte) (b := s.mask[i])
    (rest := .wait 2 :: rest) hidle rfl
  have hwait : (((s.setSegOut byte).withAgenda (.wait 2 :: rest)).transmitWhole byte s.mask[i]).GoesTo
      ((s.withAgenda rest).showWhole byte s.mask[i]) :=
    goesTo_hostOp (rest := rest) rfl (State.transmitWhole_agenda ..) fun c pins ms => by
      rw [State.transmitWhole_withAgenda]
      rfl
  exact .succ hencode (htransmit.trans hwait.advances)

/-! ### RENDER -/

/-- The pattern byte of position `i` in a RENDER (R183). -/
def renderByte (pattern : Vector Byte 10) (v : Nat) (showPoint : Bool) (pos : Int) (i : Fin 4) : Byte :=
  gateDp (pattern[digitAt v i]'(digitAt_lt v i)) (pointAt showPoint pos i)

/-- The SHOWDIGITs of a RENDER as wholes, at the positions listed (R184). -/
def State.showAll (s : State) (v : Nat) (showPoint : Bool) (pos : Int) (is : List (Fin 4)) : State :=
  is.foldl (fun u i => u.showWhole (renderByte u.pattern v showPoint pos i) u.mask[i]) s

theorem State.showAll_cons (s : State) (v : Nat) (showPoint : Bool) (pos : Int) (i : Fin 4) (is : List (Fin 4)) :
    s.showAll v showPoint pos (i :: is) =
      (s.showWhole (renderByte s.pattern v showPoint pos i) s.mask[i]).showAll v showPoint pos is := by
  rw [State.showAll, List.foldl_cons, State.showAll]

theorem advances_showDigits (v : Nat) (showPoint : Bool) (pos : Int) (rest : List HostOp) (is : List (Fin 4))
    {s : State} (hidle : s.phase = .idle)
    (hagenda : s.agenda = is.map (fun i => .showDigit i (digitAt v i) (pointAt showPoint pos i)) ++ rest) :
    State.Advances (53 * is.length) s ((s.withAgenda rest).showAll v showPoint pos is) := by
  induction is generalizing s with
  | nil =>
    have hrest : s.withAgenda rest = s := by rw [← hagenda.trans (List.nil_append rest)]; rfl
    rw [hrest]
    exact .zero s
  | cons i is ih =>
    have hfirst := advances_showDigit (digitAt_lt v i) hidle hagenda
    have hothers := ih (s := (s.withAgenda (is.map _ ++ rest)).showWhole
      (renderByte s.pattern v showPoint pos i) s.mask[i]) rfl (State.transmitWhole_agenda _ _ _)
    rw [State.showWhole, State.transmitWhole_withAgenda] at hothers
    rw [List.length_cons, Nat.mul_succ, Nat.add_comm, State.showAll_cons]
    exact hfirst.trans hothers

/-! ### The statements -/

/-- Settles O19: the run ends after the frame's events, with the operands latched and the block idle, as the whole
operation does. -/
theorem twoLevelsAgree : Obligations.TwoLevelsAgree := by
  intro s a b pins rest hidle
  have hinputs := State.emitAll_comm (fun u => { u with inputs := rest }) (fun _ _ _ => rfl) s
    (frameEvents (frameOf a b))
  have hwhole : s.midFrame a b .idle (frameEvents (frameOf a b)) rest =
      State.transmitWhole { s with inputs := rest } a b :=
    congrArg (fun u : State => { u with seg := a, sel := b, phase := .idle }) hinputs
  obtain ⟨hdata, hclock, hlatch⟩ := State.transmitWhole_levels { s with inputs := rest } a b
  exact ⟨_, (runSteps_presentTransmit s a b pins rest hidle).trans (congrArg _ hwhole), rfl, rfl, hdata, hclock,
    hlatch⟩

/-- Settles O25: either order is a run of the serializer's step with one tick. -/
theorem tickCommutesWithSerializer : Obligations.TickCommutesWithSerializer := by
  intro s pins n rest hphase
  have hstep := (goesTo_serializer hphase).advances
  exact ⟨_, hstep.run_listed [.tick, .go pins] rest (by simp [Move.isGo, Move.isTick]) rfl,
    hstep.run_listed [.go pins, .tick] rest (by simp [Move.isGo, Move.isTick]) rfl, rfl⟩

/-- Settles O26: the frame's fifty steps end in one state however ticks are interleaved with them. -/
theorem frameCompletesUnderTicks : Obligations.FrameCompletesUnderTicks := by
  intro s moves rest hphase hmoves hcount
  have hagenda : (s.emitAll (frameEvents s.frame)).agenda = s.agenda :=
    State.emitAll_keeps (·.agenda) (fun _ _ _ => rfl) s _
  refine ⟨_, (advances_frame hphase).run_listed moves rest hmoves hcount, ?_⟩
  simp [hagenda]

/-- Settles O36: the 53 steps of SHOWDIGIT, here with no tick among them. -/
theorem showDigitWhole : Obligations.ShowDigitWhole := by
  intro s pins i d h dp rest moves hidle hagenda
  have hrun := (advances_showDigit h hidle hagenda).run_listed (List.replicate 53 (.go pins)) moves
    (fun m hm => .inl (by rw [List.eq_of_mem_replicate hm]; rfl)) rfl
  rw [State.showWhole, State.transmitWhole_withClockOf] at hrun
  exact hrun

end Sys2Proof.Machine

/-! PROOF. The receiver over a whole frame: one pass of the loop shifts one bit in, the frame is in `SR` after its
sixteen passes, and its last event, the only one, commits it (spec/42_receiver_and_display.md sections 2 and 4). -/

namespace Sys2Proof.Machine

open Sys2Proof

/-! ### The edges of a frame -/

/-- The edges on a line are made by the events on that line. -/
theorem countEdges_filter (kind : Edge) (l : Line) (held : Bool) (es : List Event) :
    countEdges kind l held es = countEdges kind l held (es.filter fun e => e.line = l) := by
  induction es generalizing held with
  | nil => rfl
  | cons e es ih =>
    by_cases h : e.line = l
    · rw [List.filter_cons_of_pos (by simpa using h), countEdges, countEdges, if_pos h, if_pos h, ih]
    · rw [List.filter_cons_of_neg (by simpa using h), countEdges, if_neg h, ih]

/-- Settles O22: per line a frame's events are a fixed list, whose edges are counted from either level. -/
theorem frameEdges : Obligations.FrameEdges := by
  intro frame c0 l0
  rw [countEdges_filter .rising .clock, countEdges_filter .falling .clock, countEdges_filter .falling .latch,
    countEdges_filter .rising .latch, frameEvents_clock, frameEvents_latch]
  revert c0 l0
  decide

/-! ### One pass -/

/-- R161: what a shift leaves in each bit of `SR`. -/
theorem getLsbD_shiftIn (sr : Frame) (bit : Bool) {j : Nat} (hj : j < 16) :
    (sr.extractLsb' 0 15 ++ BitVec.ofBool bit : Frame).getLsbD j = if j = 0 then bit else sr.getLsbD (j - 1) := by
  show BitVec.getLsbD (sr.extractLsb' 0 15 ++ BitVec.ofBool bit : BitVec (15 + 1)) j = _
  rw [BitVec.getLsbD_append, BitVec.getLsbD_extractLsb']
  by_cases hzero : j = 0
  · subst hzero
    simp
  · have hlow : ¬ j < 1 := by omega
    have hwidth : j - 1 < 15 := by omega
    simp [hlow, hzero, hwidth]

theorem State.emitAll_bitEvents_clock (s : State) (frame : Frame) (k : Nat) :
    (s.emitAll (bitEvents frame k)).clock = false := rfl

/-- R161, R164: a pass shifts its bit in, on either edge, unless a rising-edge receiver finds `CLOCK` high already. -/
theorem State.emitAll_bitEvents_sr (s : State) (frame : Frame) (k : Nat) :
    (s.emitAll (bitEvents frame k)).sr =
      if s.rxEdge = .rising ∧ s.clock = true then s.sr
      else s.sr.extractLsb' 0 15 ++ BitVec.ofBool (frame.getLsbD (15 - k)) := by
  cases hedge : s.rxEdge with
  | rising =>
    cases hclock : s.clock with
    | false => simp [bitEvents, State.srAfter, activeEdge, risingEdge, hedge, hclock]
    | true => simp [bitEvents, State.srAfter, activeEdge, risingEdge, hedge, hclock]
  | falling => simp [bitEvents, State.srAfter, activeEdge, fallingEdge, hedge]

/-! ### The passes of a frame -/

/-- `k` passes from pass `i` on. -/
def passes (frame : Frame) (i k : Nat) : List Event := (List.range' i k).flatMap (bitEvents frame)

theorem passes_succ (frame : Frame) (i k : Nat) :
    passes frame i (k + 1) = bitEvents frame i ++ passes frame (i + 1) k := by
  rw [passes, List.range'_succ, List.flatMap_cons, passes]

/-- R130: a frame is `LATCH` low, sixteen passes and `LATCH` high. -/
theorem frameEvents_eq_passes (frame : Frame) :
    frameEvents frame = ⟨.latch, false⟩ :: (passes frame 0 16 ++ [⟨.latch, true⟩]) := by
  rw [frameEvents, passes, List.range_eq_range']

theorem line_of_mem_passes {frame : Frame} {i k : Nat} {e : Event} (h : e ∈ passes frame i k) : e.line ≠ .latch := by
  obtain ⟨j, -, hj⟩ := List.mem_flatMap.mp h
  simp only [bitEvents, List.mem_cons, List.not_mem_nil, or_false] at hj
  obtain rfl | rfl | rfl := hj
  · exact nofun
  · exact nofun
  · exact nofun

/-- R164: from `CLOCK = 0` each of `k` passes shifts its bit in, on either edge. -/
theorem State.emitAll_passes_sr (frame : Frame) (k i : Nat) (hik : i + k ≤ 16) {s : State} (hclock : s.clock = false)
    {j : Nat} (hj : j < 16) :
    (s.emitAll (passes frame i k)).sr.getLsbD j =
      if j < k then frame.getLsbD (16 - i - k + j) else s.sr.getLsbD (j - k) := by
  induction k generalizing i s with
  | zero => rfl
  | succ k ih =>
    have hseen : ¬ (s.rxEdge = .rising ∧ s.clock = true) := by simp [hclock]
    rw [passes_succ, State.emitAll_append, ih (i + 1) (by omega) (s.emitAll_bitEvents_clock frame i),
      s.emitAll_bitEvents_sr, if_neg hseen, getLsbD_shiftIn _ _ (by omega)]
    obtain hlt | rfl | hgt := Nat.lt_trichotomy j k
    · have hindex : 16 - (i + 1) - k + j = 16 - i - (k + 1) + j := by omega
      rw [if_pos hlt, if_pos (by omega), hindex]
    · have hindex : 15 - i = 16 - i - (j + 1) + j := by omega
      rw [if_neg (by omega), if_pos (by omega), if_pos (by omega), hindex]
    · have hindex : j - k - 1 = j - (k + 1) := by omega
      rw [if_neg (by omega), if_neg (by omega), if_neg (by omega), hindex]

/-! ### The commit -/

/-- R163: `Q` moves at a rise of `LATCH` only. -/
theorem State.emit_q_of_ne_latchHigh (s : State) {e : Event} (h : e ≠ ⟨.latch, true⟩) :
    (s.emit e.line e.level).q = s.q := by
  obtain ⟨l, v⟩ := e
  by_cases hl : l = .latch
  · subst hl
    cases v with
    | true => exact absurd rfl h
    | false => rw [State.emit_latchLow_eq]
  · exact s.qAfter_of_ne_latch v hl

theorem State.emitAll_q_of_ne_latchHigh (s : State) {es : List Event} (h : ∀ e ∈ es, e ≠ ⟨.latch, true⟩) :
    (s.emitAll es).q = s.q := by
  induction es generalizing s with
  | nil => rfl
  | cons e es ih =>
    obtain ⟨he, hes⟩ := List.forall_mem_cons.mp h
    rw [State.emitAll_cons, ih _ hes, s.emit_q_of_ne_latchHigh he]

theorem State.emitAll_latch_of_ne (s : State) {es : List Event} (h : ∀ e ∈ es, e.line ≠ .latch) :
    (s.emitAll es).latch = s.latch := by
  induction es generalizing s with
  | nil => rfl
  | cons e es ih =>
    obtain ⟨he, hes⟩ := List.forall_mem_cons.mp h
    rw [State.emitAll_cons, ih _ hes, State.emit_latch, if_neg he]

/-- A frame up to its commit, and the commit. -/
theorem State.emitAll_frameEvents (s : State) (frame : Frame) :
    s.emitAll (frameEvents frame) = ((s.emit .latch false).emitAll (passes frame 0 16)).emit .latch true := by
  rw [frameEvents_eq_passes, State.emitAll_cons, State.emitAll_append]
  rfl

/-- R164: after a frame `Q` is `SR`. -/
theorem State.emitAll_frameEvents_q (s : State) (frame : Frame) :
    (s.emitAll (frameEvents frame)).q = (s.emitAll (frameEvents frame)).sr := by
  have hlatch : ((s.emit .latch false).emitAll (passes frame 0 16)).latch = false :=
    State.emitAll_latch_of_ne _ fun e he => line_of_mem_passes he
  rw [State.emitAll_frameEvents, State.emit_q, State.qAfter_latchHigh, hlatch, if_neg Bool.false_ne_true, State.emit_sr,
    State.srAfter_of_ne_clock _ _ (by decide)]

/-- R164, R167: after a frame `SR` is the frame, but for bit 15 where a rising-edge receiver missed the first pulse. -/
theorem State.emitAll_frameEvents_sr (s : State) (frame : Frame) {j : Nat} (hj : j < 16) :
    (s.emitAll (frameEvents frame)).sr.getLsbD j =
      if j < 15 then frame.getLsbD j
      else if s.rxEdge = .rising ∧ s.clock = true then s.sr.getLsbD 0 else frame.getLsbD 15 := by
  have hsr : (s.emitAll (frameEvents frame)).sr = ((s.emit .latch false).emitAll (passes frame 0 16)).sr := by
    rw [State.emitAll_frameEvents, State.emit_sr, State.srAfter_of_ne_clock _ _ (by decide)]
  rw [hsr, passes_succ, State.emitAll_append,
    State.emitAll_passes_sr frame 15 (0 + 1) (by omega) (State.emitAll_bitEvents_clock ..) hj,
    State.emitAll_bitEvents_sr]
  by_cases hlow : j < 15
  · rw [if_pos hlow, if_pos hlow, show 16 - (0 + 1) - 15 + j = j by omega]
  · rw [if_neg hlow, if_neg hlow, show j - 15 = 0 by omega]
    split
    next h => exact (if_pos h).symm
    next h => exact (getLsbD_shiftIn _ _ (by decide)).trans (if_neg h).symm

/-- R164: a frame whose first pulse the receiver sees is in `SR` after it. -/
theorem State.emitAll_frameEvents_sr_eq (s : State) (frame : Frame) (h : ¬ (s.rxEdge = .rising ∧ s.clock = true)) :
    (s.emitAll (frameEvents frame)).sr = frame := by
  refine BitVec.eq_of_getLsbD_eq fun j hj => ?_
  rw [s.emitAll_frameEvents_sr frame hj, if_neg h]
  split
  · rfl
  · rw [show j = 15 by omega]

theorem State.emitAll_frameEvents_q_eq (s : State) (frame : Frame) (h : ¬ (s.rxEdge = .rising ∧ s.clock = true)) :
    (s.emitAll (frameEvents frame)).q = frame :=
  (s.emitAll_frameEvents_q frame).trans (s.emitAll_frameEvents_sr_eq frame h)

/-! ### The statements -/

/-- R136: no event before the last one of a frame raises `LATCH`. -/
theorem frameEvent_ne_latchHigh (frame : Frame) {n : Nat} (h : n < 49) : frameEvent frame n ≠ ⟨.latch, true⟩ := by
  intro hevent
  obtain rfl | rfl := frameIndex_of_latch (frame := frame) (n := n) (by omega) (by rw [hevent])
  · cases hevent
  · omega

@[simp] theorem State.midFrame_q (s : State) (a b : Byte) (p : Phase) (done : List Event) (ms : List Move) :
    (s.midFrame a b p done ms).q = (s.emitAll done).q := rfl

@[simp] theorem State.midFrame_sr (s : State) (a b : Byte) (p : Phase) (done : List Event) (ms : List Move) :
    (s.midFrame a b p done ms).sr = (s.emitAll done).sr := rfl

/-- The state after the first `j + 1` of the 51 steps. -/
theorem runSteps_presentTransmit_inside (s : State) (a b : Byte) (pins : Pins) (rest : List Move)
    (hidle : s.phase = .idle) {j : Nat} (hj : j < 50) :
    runSteps (j + 1) (s.presentTransmit a b pins rest) =
      .next (s.midFrame a b (.event ⟨j, hj⟩) ((List.range' 0 j).map (frameEvent (frameOf a b)))
        (List.replicate (50 - j) (.go pins) ++ rest)) := by
  have hmoves : List.replicate 50 (Move.go pins) ++ rest =
      List.replicate j (.go pins) ++ (List.replicate (50 - j) (.go pins) ++ rest) := by
    rw [← List.append_assoc, List.replicate_append_replicate, show j + (50 - j) = 50 by omega]
  rw [runSteps_succ j (step_presentTransmit s a b pins rest hidle), hmoves]
  have hrun := runSteps_midFrame s a b pins (List.replicate (50 - j) (.go pins) ++ rest) j 0 (by omega) []
  simp only [Nat.zero_add, List.nil_append] at hrun
  exact hrun

/-- Settles O23: no step before the last commits anything, and the last commits the frame. -/
theorem transmitCommitsOperands : Obligations.TransmitCommitsOperands := by
  intro s a b pins rest hidle hclock
  have hseen : ¬ (s.rxEdge = .rising ∧ s.clock = true) := by simp [hclock]
  refine ⟨fun k hk => ?before, _, runSteps_presentTransmit s a b pins rest hidle, ?commit⟩
  case before =>
    cases k with
    | zero => exact ⟨_, rfl, rfl⟩
    | succ j =>
      refine ⟨_, runSteps_presentTransmit_inside s a b pins rest hidle (by omega), ?_⟩
      rw [State.midFrame_q]
      refine s.emitAll_q_of_ne_latchHigh fun e he => ?_
      obtain ⟨n, hn, rfl⟩ := List.mem_map.mp he
      rw [List.mem_range'_1] at hn
      exact frameEvent_ne_latchHigh _ (by omega)
  case commit =>
    rw [State.midFrame_q, State.midFrame_sr, s.emitAll_frameEvents_q_eq _ hseen, s.emitAll_frameEvents_sr_eq _ hseen]
    exact ⟨rfl, rfl⟩

/-- Settles O24: the bits of `SR` after a frame that begins with `CLOCK` high, on either edge. -/
theorem firstFrameHazard : Obligations.FirstFrameHazard := by
  intro s a b pins rest hidle hclock
  refine ⟨_, runSteps_presentTransmit s a b pins rest hidle, ?_⟩
  rw [State.midFrame_q, State.midFrame_sr]
  refine ⟨s.emitAll_frameEvents_q _, fun hrising => ⟨?_, ?_⟩,
    fun hfalling => s.emitAll_frameEvents_sr_eq _ (by simp [hfalling])⟩
  · rw [s.emitAll_frameEvents_sr _ (by decide), if_neg (by decide), if_pos ⟨hrising, hclock⟩]
  · refine BitVec.eq_of_getLsbD_eq fun j hj => ?_
    rw [BitVec.getLsbD_extractLsb', BitVec.getLsbD_extractLsb', Nat.zero_add, s.emitAll_frameEvents_sr _ (by omega),
      if_pos hj]
    rfl

end Sys2Proof.Machine

/-! PROOF. What the outputs show: one position and its digit for the frame of an ENCODE result, and the end state and the
four commits of a RENDER (spec/42_receiver_and_display.md sections 3 and 5, spec/43_render.md sections 4 and 5;
log 19). -/

namespace Sys2Proof.Machine

open Sys2Proof

/-! ### The two halves of the outputs -/

theorem patternByte_frameOf (a b : Byte) : patternByte (frameOf a b) = a := by
  refine BitVec.eq_of_getLsbD_eq fun j hj => ?_
  have hupper : ¬ 8 + j < 8 := by omega
  rw [patternByte, BitVec.getLsbD_extractLsb', frameOf_getLsbD, if_neg hupper, Nat.add_sub_cancel_left, decide_eq_true hj,
    Bool.true_and]

theorem maskByte_frameOf (a b : Byte) : maskByte (frameOf a b) = b := by
  refine BitVec.eq_of_getLsbD_eq fun j hj => ?_
  rw [maskByte, BitVec.getLsbD_extractLsb', frameOf_getLsbD, Nat.zero_add, if_pos hj, decide_eq_true hj, Bool.true_and]

/-! ### Positions -/

/-- R27: a mask has a bit set. -/
theorem State.RomWf.mask_ne_zero {s : State} (h : s.RomWf) (p : Fin 4) : s.mask[p] ≠ 0#8 := by
  obtain ⟨-, hone, -⟩ := h
  obtain ⟨k, hk⟩ := hone p
  have hshift : ∀ k : Fin 8, 1#8 <<< k.val ≠ 0#8 := by decide
  rw [hk]
  exact hshift k

/-- R27: a mask enables its own position and no other. -/
theorem State.RomWf.positionEnabled_iff {s : State} (h : s.RomWf) (a : Byte) (p r : Fin 4) :
    positionEnabled s.mask (frameOf a s.mask[p]) r = true ↔ r = p := by
  rw [positionEnabled, maskByte_frameOf, bne_iff_ne]
  obtain rfl | hne := eq_or_ne r p
  · rw [BitVec.and_self]
    exact iff_of_true (h.mask_ne_zero r) rfl
  · obtain ⟨-, -, hdisjoint⟩ := h
    exact iff_of_false (not_not_intro (hdisjoint p r hne.symm)) hne

theorem State.RomWf.shownPositions_eq {s : State} (h : s.RomWf) (a : Byte) (p : Fin 4) :
    shownPositions s.mask (frameOf a s.mask[p]) = [p] := by
  have hone : ∀ p : Fin 4, ((List.finRange 4).filter fun r => r = p) = [p] := by decide
  have hfilter : positionEnabled s.mask (frameOf a s.mask[p]) = fun r => decide (r = p) := by
    funext r
    rw [Bool.eq_iff_iff, h.positionEnabled_iff, decide_eq_true_iff]
  rw [shownPositions, hfilter, hone]

/-- Settles O31: only position `p` is enabled, and there a segment or the point is lit where its bit is 0. -/
theorem oneHotMaskLightsOnePosition : Obligations.OneHotMaskLightsOnePosition := by
  intro s seg p r x hrom
  simp only [segmentLit, pointLit, Bool.and_eq_true, hrom.positionEnabled_iff, patternByte_frameOf, Bool.not_eq_true',
    Config.dpBit, and_self]

/-! ### Digits -/

/-- R24: setting bit 7 again undoes the gate. -/
theorem gateDp_or_pointBit {entry : Byte} (h : entry.getLsbD 7 = true) (dp : Bool) :
    gateDp entry dp ||| 0x80#8 = entry := by
  revert entry dp
  decide

theorem State.RomWf.entry_bit {s : State} (h : s.RomWf) (d : Nat) (hd : d < 10) : s.pattern[d].getLsbD 7 = true := by
  obtain ⟨hentry, -⟩ := h
  exact hentry ⟨d, hd⟩

/-- R166: a table with ten distinct entries reads its own byte back, point or no point. -/
theorem State.RomWf.shownDigit_eq {s : State} (h : s.RomWf) (hinj : s.PatternInjective) (d : Fin 10) (dp : Bool)
    (b : Byte) : shownDigit s.pattern (frameOf (gateDp s.pattern[d] dp) b) = some d := by
  have hbyte : gateDp s.pattern[d] dp ||| 0x80#8 = s.pattern[d] := gateDp_or_pointBit (h.entry_bit d d.isLt) dp
  have hentry : (fun e : Fin 10 => s.pattern[e] == gateDp s.pattern[d] dp ||| 0x80#8) = fun e => decide (e = d) := by
    funext e
    rw [hbyte, beq_eq_decide, decide_eq_decide]
    exact ⟨hinj e d, fun he => he ▸ rfl⟩
  have hfind : ∀ d : Fin 10, ((List.finRange 10).find? fun e => e = d) = some d := by decide
  rw [shownDigit, patternByte_frameOf, hentry, hfind]

/-- R166: the point is read back too. -/
theorem State.RomWf.shownPoint_eq {s : State} (h : s.RomWf) (d : Nat) (hd : d < 10) (dp : Bool) (b : Byte) :
    shownPoint (frameOf (gateDp s.pattern[d] dp) b) = dp := by
  rw [shownPoint, frameOf_getLsbD_fifteen, gateDp_getLsbD_seven, h.entry_bit d hd, Bool.true_and, Bool.not_not]

/-- Settles O30: the byte ENCODE gives reads back as its digit and its point, and the mask entry as its position. -/
theorem displayShowsEncodedDigit : Obligations.DisplayShowsEncodedDigit := by
  intro s d dp p hrom hinj
  exact ⟨_, exec_encode_of_lt s d d.isLt dp, hrom.shownDigit_eq hinj d dp _, hrom.shownPoint_eq d d.isLt dp _,
    hrom.shownPositions_eq _ p⟩

/-- R168: the frame of position `i` is perceived as its digit and its point. -/
theorem State.RomWf.perceivedAt_eq {s : State} (h : s.RomWf) (hinj : s.PatternInjective) (d : Nat) (hd : d < 10)
    (dp : Bool) (i : Fin 4) :
    perceivedAt s.pattern s.mask (frameOf (gateDp s.pattern[d] dp) s.mask[i]) i = some ⟨⟨d, hd⟩, dp⟩ := by
  have hdigit : shownDigit s.pattern (frameOf (gateDp s.pattern[d] dp) s.mask[i]) = some ⟨d, hd⟩ :=
    h.shownDigit_eq hinj ⟨d, hd⟩ dp _
  rw [perceivedAt, if_pos (h.shownPositions_eq _ i), hdigit, h.shownPoint_eq d hd]
  rfl

/-! ### The commits of a list of frames -/

theorem commitsOf_append (s : State) (es fs : List Event) :
    commitsOf s (es ++ fs) = commitsOf s es ++ commitsOf (s.emitAll es) fs := by
  induction es generalizing s with
  | nil => rfl
  | cons e es ih =>
    rw [List.cons_append, commitsOf, commitsOf, State.emitAll_cons, ih]
    split
    · rfl
    · rfl

theorem commitsOf_of_ne_latch (s : State) {es : List Event} (h : ∀ e ∈ es, e.line ≠ .latch) :
    commitsOf s es = [] := by
  induction es generalizing s with
  | nil => rfl
  | cons e es ih =>
    obtain ⟨he, hes⟩ := List.forall_mem_cons.mp h
    rw [commitsOf, if_neg fun ⟨hlatch, _⟩ => he hlatch, ih _ hes]

/-- R163: the fall of `LATCH` commits nothing, and neither do the passes. -/
theorem commitsOf_frameEvents (s : State) (frame : Frame) :
    commitsOf s (frameEvents frame) = [(s.emitAll (frameEvents frame)).q] := by
  have hlatch : ((s.emit .latch false).emitAll (passes frame 0 16)).latch = false :=
    State.emitAll_latch_of_ne _ fun e he => line_of_mem_passes he
  have hfall : ¬ (Line.latch = .latch ∧ risingEdge s.latch false = true) := by simp [risingEdge]
  rw [State.emitAll_frameEvents, frameEvents_eq_passes, commitsOf, if_neg hfall, commitsOf_append,
    commitsOf_of_ne_latch _ fun e he => line_of_mem_passes he, List.nil_append, commitsOf,
    if_pos ⟨rfl, by rw [hlatch]; rfl⟩, commitsOf]

theorem State.emitAll_frameEvents_clock (s : State) (frame : Frame) : (s.emitAll (frameEvents frame)).clock = false := rfl

/-- R164: from `CLOCK = 0` each frame of a list is committed as it stands. -/
theorem commitsOf_frames {s : State} (hclock : s.clock = false) (fs : List Frame) :
    commitsOf s (fs.flatMap frameEvents) = fs := by
  induction fs generalizing s with
  | nil => rfl
  | cons f fs ih =>
    rw [List.flatMap_cons, commitsOf_append, commitsOf_frameEvents, s.emitAll_frameEvents_q_eq f (by simp [hclock]),
      ih (s.emitAll_frameEvents_clock f), List.singleton_append]

/-! ### RENDER -/

theorem renderFrames_eq_map (pattern : Vector Byte 10) (mask : Vector Byte 4) (v : Nat) (showPoint : Bool) (pos : Int) :
    renderFrames pattern mask v showPoint pos =
      (List.finRange 4).map fun i => frameOf (renderByte pattern v showPoint pos i) mask[i] :=
  renderFrames_eq pattern mask v showPoint pos

/-- R189: four frames of fifty events. -/
theorem renderEvents_length (pattern : Vector Byte 10) (mask : Vector Byte 4) (v : Nat) (showPoint : Bool) (pos : Int) :
    (renderEvents pattern mask v showPoint pos).length = 200 := by
  rw [renderEvents, renderFrames_eq_map, List.length_flatMap, List.map_map]
  rfl

/-- R187 at the units digit. -/
theorem pointAt_last (showPoint : Bool) (pos : Int) : pointAt showPoint pos 3 = (showPoint && pos == 3) := by
  rw [pointAt, beq_eq_decide, decide_eq_decide.mpr eq_comm]
  rfl

/-- The fields that SHOWDIGITs leave. -/
theorem State.showAll_keeps {α : Type} (read : State → α) (hout : ∀ (s : State) b, read (s.setSegOut b) = read s)
    (hwhole : ∀ (s : State) a b, read (s.transmitWhole a b) = read s) (s : State) (v : Nat) (showPoint : Bool)
    (pos : Int) (is : List (Fin 4)) : read (s.showAll v showPoint pos is) = read s := by
  induction is generalizing s with
  | nil => rfl
  | cons i is ih => rw [State.showAll_cons, ih, State.showWhole, hwhole, hout]

theorem State.transmitWhole_pattern (s : State) (a b : Byte) : (s.transmitWhole a b).pattern = s.pattern :=
  State.emitAll_keeps (·.pattern) (fun _ _ _ => rfl) s _

theorem State.transmitWhole_mask (s : State) (a b : Byte) : (s.transmitWhole a b).mask = s.mask :=
  State.emitAll_keeps (·.mask) (fun _ _ _ => rfl) s _

theorem State.showAll_pattern (s : State) (v : Nat) (showPoint : Bool) (pos : Int) (is : List (Fin 4)) :
    (s.showAll v showPoint pos is).pattern = s.pattern :=
  State.showAll_keeps (·.pattern) (fun _ _ => rfl) State.transmitWhole_pattern s v showPoint pos is

theorem State.showAll_mask (s : State) (v : Nat) (showPoint : Bool) (pos : Int) (is : List (Fin 4)) :
    (s.showAll v showPoint pos is).mask = s.mask :=
  State.showAll_keeps (·.mask) (fun _ _ => rfl) State.transmitWhole_mask s v showPoint pos is

theorem State.showAll_agenda (s : State) (v : Nat) (showPoint : Bool) (pos : Int) (is : List (Fin 4)) :
    (s.showAll v showPoint pos is).agenda = s.agenda :=
  State.showAll_keeps (·.agenda) (fun _ _ => rfl) State.transmitWhole_agenda s v showPoint pos is

theorem State.transmitWhole_clock (s : State) (a b : Byte) : (s.transmitWhole a b).clock = false :=
  s.emitAll_frameEvents_clock (frameOf a b)

theorem State.transmitWhole_q {s : State} (h : s.clock = false) (a b : Byte) :
    (s.transmitWhole a b).q = frameOf a b :=
  s.emitAll_frameEvents_q_eq (frameOf a b) (by simp [h])

/-- R189: the events of the SHOWDIGITs are those of their frames. -/
theorem State.showAll_trace (s : State) (v : Nat) (showPoint : Bool) (pos : Int) (is : List (Fin 4)) :
    (s.showAll v showPoint pos is).trace = s.trace ++
      (is.map fun i => frameOf (renderByte s.pattern v showPoint pos i) s.mask[i]).flatMap frameEvents := by
  induction is generalizing s with
  | nil => exact (List.append_nil _).symm
  | cons i is ih =>
    rw [State.showAll_cons, ih, State.showWhole, State.transmitWhole_trace, State.transmitWhole_pattern,
      State.transmitWhole_mask, List.map_cons, List.flatMap_cons, List.append_assoc]
    rfl

/-- The last SHOWDIGIT decides the lines. -/
theorem State.showAll_append_singleton (s : State) (v : Nat) (showPoint : Bool) (pos : Int) (is : List (Fin 4))
    (i : Fin 4) :
    s.showAll v showPoint pos (is ++ [i]) =
      (s.showAll v showPoint pos is).showWhole (renderByte s.pattern v showPoint pos i) s.mask[i] := by
  rw [← s.showAll_pattern v showPoint pos is, ← s.showAll_mask v showPoint pos is, State.showAll, List.foldl_append,
    List.foldl_cons, List.foldl_nil, State.showAll]

theorem State.showAll_clock {s : State} (h : s.clock = false) (v : Nat) (showPoint : Bool) (pos : Int)
    (is : List (Fin 4)) : (s.showAll v showPoint pos is).clock = false := by
  induction is generalizing s with
  | nil => exact h
  | cons i is ih =>
    rw [State.showAll_cons]
    exact ih (State.transmitWhole_clock ..)

/-- R184, R190: a RENDER is its decomposition and four SHOWDIGITs, in 213 steps. -/
theorem advances_render {s : State} {v : Nat} {showPoint : Bool} {pos : Int} {rest : List HostOp}
    (hidle : s.phase = .idle) (hagenda : s.agenda = .render v showPoint pos :: rest) :
    State.Advances 213 s ((s.withAgenda rest).showAll v showPoint pos (List.finRange 4)) := by
  have hdecompose : s.GoesTo (s.withAgenda (showDigits v showPoint pos ++ rest)) :=
    goesTo_hostOp hidle hagenda fun c pins ms => hostOp_render v showPoint pos pins _
  exact .succ hdecompose (advances_showDigits v showPoint pos rest (List.finRange 4)
    (s := s.withAgenda (showDigits v showPoint pos ++ rest)) hidle rfl)

/-- The end of a RENDER: the frame of position 3 is the last. -/
theorem State.showAll_finRange (s : State) (v : Nat) (showPoint : Bool) (pos : Int) :
    s.showAll v showPoint pos (List.finRange 4) =
      (s.showAll v showPoint pos [0, 1, 2]).showWhole (renderByte s.pattern v showPoint pos 3) s.mask[3] :=
  s.showAll_append_singleton v showPoint pos [0, 1, 2] 3

theorem State.showAll_finRange_phase (s : State) (v : Nat) (showPoint : Bool) (pos : Int) :
    (s.showAll v showPoint pos (List.finRange 4)).phase = .idle := by
  rw [State.showAll_finRange]
  rfl

theorem State.showAll_finRange_levels (s : State) (v : Nat) (showPoint : Bool) (pos : Int) :
    (s.showAll v showPoint pos (List.finRange 4)).data = s.mask[3].getLsbD 0 ∧
      (s.showAll v showPoint pos (List.finRange 4)).clock = false ∧
      (s.showAll v showPoint pos (List.finRange 4)).latch = true := by
  rw [State.showAll_finRange]
  exact State.transmitWhole_levels ..

/-- R189: the events of a RENDER. -/
theorem State.showAll_finRange_trace (s : State) (v : Nat) (showPoint : Bool) (pos : Int) :
    (s.showAll v showPoint pos (List.finRange 4)).trace = s.trace ++ renderEvents s.pattern s.mask v showPoint pos := by
  rw [State.showAll_trace, renderEvents, renderFrames_eq_map]

/-- R190: from `CLOCK = 0` the units digit is what stays in `Q`. -/
theorem State.showAll_finRange_q {s : State} (h : s.clock = false) (v : Nat) (showPoint : Bool) (pos : Int) :
    (s.showAll v showPoint pos (List.finRange 4)).q = frameOf (renderByte s.pattern v showPoint pos 3) s.mask[3] := by
  have hclock := State.showAll_clock h v showPoint pos [0, 1, 2]
  rw [State.showAll_finRange, State.showWhole, State.transmitWhole_q (by rwa [State.setSegOut_clock])]

/-- Settles O37: the 213 steps end in one state however ticks are interleaved, the state after four whole SHOWDIGITs. -/
theorem renderWhole : Obligations.RenderWhole := by
  intro s v showPoint pos rest moves later hidle hagenda hmoves hcount
  have hrun := (advances_render hidle hagenda).run_listed moves later hmoves hcount
  obtain ⟨hdata, hclock, hlatch⟩ := (s.withAgenda rest).showAll_finRange_levels v showPoint pos
  have htrace := (s.withAgenda rest).showAll_finRange_trace v showPoint pos
  have hq (h : s.clock = false) := State.showAll_finRange_q (s := s.withAgenda rest) h v showPoint pos
  rw [renderByte, pointAt_last] at hq
  refine ⟨_, hrun, ?_⟩
  simp only [State.withClockOf_trace, State.withClockOf_phase, State.withClockOf_latch, State.withClockOf_clock,
    State.withClockOf_data, State.withClockOf_agenda, State.withClockOf_inputs, State.withClockOf_seconds,
    State.withClockOf_minutes, State.withClockOf_pattern, State.withClockOf_mask, State.withClockOf_q, true_and]
  exact ⟨htrace, renderEvents_length .., State.showAll_finRange_phase .., hlatch, hclock, hdata,
    State.showAll_agenda .., State.showAll_pattern .., State.showAll_mask .., hq⟩

/-- Settles O38: the commits are the four frames, each perceived at its position. -/
theorem perceivedReadoutOfRender : Obligations.PerceivedReadoutOfRender := by
  intro s v showPoint pos hrom hinj hclock
  refine ⟨Vector.ofFn fun i => frameOf (renderByte s.pattern v showPoint pos i) s.mask[i], ?_, ?_⟩
  · rw [renderEvents, commitsOf_frames hclock, renderFrames_eq_map]
    rfl
  · refine List.map_congr_left fun i _ => ?_
    have hcommit : (Vector.ofFn fun i => frameOf (renderByte s.pattern v showPoint pos i) s.mask[i])[i] =
        frameOf (renderByte s.pattern v showPoint pos i) s.mask[i] := by simp
    have hdigit : (⟨digitAt v i, digitAt_lt v i⟩ : Fin 10) = Fin.ofNat 10 (digitAt v i) :=
      Fin.ext (Nat.mod_eq_of_lt (digitAt_lt v i)).symm
    rw [hcommit, renderByte, hrom.perceivedAt_eq hinj _ (digitAt_lt v i), hdigit]

end Sys2Proof.Machine

/-! PROOF. The instructions and the step: ENCODE's laws, acceptance, the word that a step runs, and the moves that leave
the block (spec/30_encoding.md sections 4 and 5, spec/40_encode.md, spec/41_transmit.md section 3). -/

namespace Sys2Proof.Machine

open Sys2Proof

/-! ### ENCODE -/

/-- Law (c) of R115: the two results differ by the weight of bit 7. -/
theorem toNat_sub_pointOff {entry : Byte} (h : entry.getLsbD 7 = true) :
    entry.toNat - (entry &&& 0x7F#8).toNat = 0x80 := by
  revert entry
  decide

/-- Settles O9: both results are the ROM entry, one with bit 7 cleared, and a well-formed entry has it set. -/
theorem encodeLaws : Obligations.EncodeLaws := by
  intro s d h hrom
  have hbit := hrom.entry_bit d h
  refine ⟨_, _, exec_encode_pointOff s d h, exec_encode_pointOn s d h, rfl, hbit, ?_, fun k hk => ⟨rfl, ?_⟩,
    toNat_sub_pointOff hbit, fun cc hcc => ?_⟩
  · rw [State.setSegOut_segOut, getLsbD_and_0x7F, decide_eq_false (by decide), Bool.and_false]
  · rw [State.setSegOut_segOut, getLsbD_and_0x7F, decide_eq_true hk, Bool.and_true]
  · have hentry : s.pattern[d] = ~~~cc[d] := hcc ⟨d, h⟩
    rw [State.setSegOut_segOut, hentry, BitVec.not_not]

/-- Settles O11: the byte is the gated entry, and the two tables are one. -/
theorem encodeDependsOnOperandsOnly : Obligations.EncodeDependsOnOperandsOnly := by
  intro s t d dp h hpattern
  refine ⟨gateDp s.pattern[d] dp, exec_encode_of_lt s d h dp, ?_⟩
  simp only [← hpattern]
  exact exec_encode_of_lt t d h dp

/-! ### The main loop's step at its next operation -/

/-- The main loop performs the operation in front. -/
theorem step_of_agenda {s : State} {pins : Pins} {op : HostOp} {rest : List HostOp} (hmove : s.nextMove = .go pins)
    (hidle : s.phase = .idle) (hagenda : s.agenda = op :: rest) :
    step s = hostOp op pins { s.takeMove with agenda := rest } := by
  rw [step_host hmove hidle, hostStep_of_agenda pins (s.takeMove_agenda.trans hagenda)]

/-- Settles O10: ENCODE has no byte for such a digit, and SHOWDIGIT performs its ENCODE. -/
theorem encodeOutOfRangeRefused : Obligations.EncodeOutOfRangeRefused :=
  ⟨fun s d dp h => exec_encode_of_ge s d h dp, fun _ _ i d dp _ hmove hidle hagenda h =>
    (step_of_agenda hmove hidle hagenda).trans (hostShowDigit_of_ge i d h dp _)⟩

/-- Settles O35: a negative integer is none of RENDER's values. -/
theorem negativeValueRefused : Obligations.NegativeValueRefused := by
  intro s pins v showPoint pos rest hmove hidle hagenda hneg
  rw [step_of_agenda hmove hidle hagenda]
  cases v with
  | ofNat n => exact absurd hneg (Int.not_lt.mpr (Int.natCast_nonneg n))
  | negSucc n => rfl

/-- Settles O47: the operation in front is taken off and does nothing. -/
theorem waitHasNoEffect : Obligations.WaitHasNoEffect := fun _ _ _ _ hmove hidle hagenda =>
  step_of_agenda hmove hidle hagenda

/-- Settles O48: there is no operation in front. -/
theorem idleBlockStaysIdle : Obligations.IdleBlockStaysIdle := by
  intro s pins hmove hidle hagenda
  rw [step_host hmove hidle, hostStep, State.takeMove_agenda, hagenda]

/-! ### TRANSMIT -/

/-- Settles O12: an idle block accepts. -/
theorem transmitAccepted : Obligations.TransmitAccepted := fun s a b hidle => exec_transmit_of_idle s a b hidle

/-- Settles O13: a block in a frame does not. -/
theorem transmitRefusedWhileBusy : Obligations.TransmitRefusedWhileBusy := fun s a b _ hphase =>
  exec_transmit_of_event s a b hphase

/-! ### The word that a step runs -/

/-- Settles O5: each move that presents a word performs it, and a word that decodes is its instruction. -/
theorem stepRunsDecoded : Obligations.StepRunsDecoded := by
  refine ⟨?strobe, ?command, ?event⟩
  case strobe =>
    intro s w i hmove hdecode
    rw [step_strobe hmove, perform_ok hdecode]
  case command =>
    intro s pins w rest i hmove hidle hagenda hdecode
    rw [step_of_agenda hmove hidle hagenda]
    exact perform_ok hdecode _
  case event =>
    intro s pins n i hmove hphase hdecode
    rw [step_serializer hmove hphase]
    exact (perform_eventCode _ s.takeMove).symm.trans (perform_ok hdecode _)

/-- The placed micro-operation runs where its index issues the code. -/
theorem step_withMicroOp (s : State) (n : Fin 50) (seg : Byte) {c : EventCode} {i : Instr}
    (hcode : (frameEvent (frameOf seg s.sel) n).code = c) (h : decode (.event c) = .ok i) :
    step (s.withMicroOp n seg) = exec i (s.withMicroOp n seg).takeMove := by
  obtain ⟨-, -, hevent⟩ := stepRunsDecoded
  exact hevent (s.withMicroOp n seg) Pins.quiet n i rfl rfl (hcode ▸ h)

/-- The code issued at index 1 is a data write of bit 7 of `SEG`. -/
theorem frameEvent_one_code (seg sel : Byte) {v : Bool} (h : seg.getLsbD 7 = v) :
    (frameEvent (frameOf seg sel) 1).code = Event.code ⟨.data, v⟩ := by
  rw [frameEvent_data _ 1 0 (by decide) rfl, Nat.sub_zero, frameOf_getLsbD_fifteen, h]

theorem eventCode_cases (c : EventCode) :
    c = 0#3 ∨ c = 1#3 ∨ c = 2#3 ∨ c = 3#3 ∨ c = 4#3 ∨ c = 5#3 ∨ c = 6#3 ∨ c = 7#3 := by
  revert c
  decide

/-- Every code that decodes is placed where the sequencer issues it. -/
theorem step_withEventCode (s : State) (c : EventCode) {i : Instr} (h : decode (.event c) = .ok i) :
    step (s.withEventCode c) = exec i (s.withEventCode c).takeMove := by
  obtain rfl | rfl | rfl | rfl | rfl | rfl | rfl | rfl := eventCode_cases c
  · have hbit : (s.seg &&& 0x7F#8).getLsbD 7 = false := by simp
    exact step_withMicroOp s 1 _ (frameEvent_one_code _ s.sel hbit) h
  · have hbit : (s.seg ||| 0x80#8).getLsbD 7 = true := by simp
    exact step_withMicroOp s 1 _ (frameEvent_one_code _ s.sel hbit) h
  · exact step_withMicroOp s 3 s.seg (congrArg Event.code (frameEvent_clockLow _ 3 0 (by decide) rfl)) h
  · exact step_withMicroOp s 2 s.seg (congrArg Event.code (frameEvent_clockHigh _ 2 0 (by decide) rfl)) h
  · exact step_withMicroOp s 0 s.seg (congrArg Event.code (frameEvent_first _ 0 rfl)) h
  · exact step_withMicroOp s 49 s.seg (congrArg Event.code (frameEvent_last _ 49 rfl)) h
  · cases h
  · cases h

/-- Settles O6: a command word is placed on the strobe, an event code at an index that issues it. -/
theorem fetchWordRunsInstruction : Obligations.FetchWordRunsInstruction := by
  intro s nbits w i h
  rw [State.withFetchWord, State.placeWord]
  rw [decodeTableWord] at h
  obtain ⟨hstrobe, -⟩ := stepRunsDecoded
  cases hword : tableWord nbits w with
  | none =>
    rw [hword] at h
    cases h
  | some e =>
    rw [hword] at h
    have hdecode : decode e = .ok i := by
      simp only [Except.toOption] at h
      split at h
      next hok => cases h; exact hok
      next => cases h
    cases e with
    | command c => exact hstrobe (s.withCommand c) c i rfl hdecode
    | event c => exact step_withEventCode s c hdecode

/-! ### Reset and power -/

/-- Settles O49: each is a field of the reset state as written. -/
theorem resetState : Obligations.ResetState := ⟨rfl, rfl, rfl, rfl, rfl, rfl, rfl⟩

/-- Settles O50: a power cycle sets every field but the machine's constants and the moves still listed. -/
theorem powerCycleResets : Obligations.PowerCycleResets := fun _ _ hmove =>
  ⟨_, step_powerCycle hmove, rfl, rfl, rfl, rfl, rfl, rfl, rfl, rfl, rfl, rfl, rfl, rfl, rfl, rfl, rfl, rfl⟩

/-- Settles O51: the default tables are well formed and distinct, and before the first event nothing is asked of the
lines. -/
theorem resetIsGood : Obligations.ResetIsGood := by
  have hframe : State.reset.FrameWf := (frameWf_iff_of_start (.inl rfl)).mpr fun hne => absurd rfl hne
  exact ⟨⟨by decide, by decide, hframe⟩, by decide, by decide, by decide⟩

/-! ### SCALE -/

/-- Settles O46: truncation of a quotient, whose numerator is at most 3300 times its denominator. -/
theorem scaleExactIsFloor : Obligations.ScaleExactIsFloor := by
  refine ⟨fun x => ⟨Nat.div_mul_le_self _ _, ?_⟩, fun x => ?_,
    fun x => Nat.le_of_lt_succ (Config.scaleUnstated x).isLt⟩
  · rw [Nat.mul_comm _ x.den]
    exact Nat.lt_mul_div_succ _ (Nat.succ_pos x.denPred)
  · have hnum : x.num.val ≤ x.den := Nat.le_of_lt_succ x.num.isLt
    exact Nat.div_le_of_le_mul (Nat.mul_le_mul_right 3300 hnum)

end Sys2Proof.Machine

/-! PROOF. ClockState: TICKs add to the composite counter, ticks between two accesses of the main loop mix old and new
counters, and the branches of the main loop with no tick in between (spec/44_host_clock_and_arbiter.md sections 1
and 2). -/

namespace Sys2Proof.Machine

open Sys2Proof

/-! ### TICKs -/

theorem State.ticks_succ (k : Nat) (s : State) : State.ticks (k + 1) s = State.ticks k s.tick := rfl

theorem State.ClockWf.ticks {s : State} (h : s.ClockWf) (k : Nat) : (State.ticks k s).ClockWf := by
  induction k generalizing s with
  | zero => exact h
  | succ k ih => exact ih h.tick

/-- R204: one TICK adds 1 to the composite counter, modulo 6000. -/
theorem State.ClockWf.tick_composite {s : State} (h : s.ClockWf) :
    60 * s.tick.minutes + s.tick.seconds = (60 * s.minutes + s.seconds + 1) % 6000 := by
  obtain ⟨hsec, hmin⟩ := h
  by_cases hcarry : s.seconds + 1 = 60
  · by_cases hwrap : s.minutes + 1 = 100
    · rw [s.tick_of_wrap hcarry hwrap]
      simp only
      omega
    · rw [s.tick_of_minutes_ne hcarry hwrap]
      simp only
      omega
  · rw [s.tick_of_seconds_ne hcarry]
    simp only
    omega

/-- R204: `k` TICKs add `k`. -/
theorem State.ClockWf.ticks_composite {s : State} (h : s.ClockWf) (k : Nat) :
    60 * (State.ticks k s).minutes + (State.ticks k s).seconds = (60 * s.minutes + s.seconds + k) % 6000 := by
  induction k generalizing s with
  | zero =>
    obtain ⟨hsec, hmin⟩ := h
    rw [Nat.mod_eq_of_lt (by omega)]
    rfl
  | succ k ih =>
    rw [State.ticks_succ, ih h.tick, h.tick_composite]
    omega

/-- TICKs touch the two counters only. -/
theorem State.ticks_eq_with_clock (k : Nat) (s : State) :
    State.ticks k s = { s with seconds := (State.ticks k s).seconds, minutes := (State.ticks k s).minutes } := by
  induction k generalizing s with
  | zero => rfl
  | succ k ih => exact ih s.tick

/-- Settles O40: in range the composite counter determines both counters. -/
theorem tickLaws : Obligations.TickLaws := by
  refine ⟨fun s k h => ⟨h.ticks k, h.ticks_composite k⟩, fun s h hzero => ?minute, fun s hmin hsec => ?hour,
    fun s h => ?round⟩
  case minute =>
    have hcomposite := h.ticks_composite 60
    obtain ⟨hsec', hmin'⟩ := h.ticks 60
    obtain ⟨-, hmin⟩ := h
    exact ⟨by omega, by omega⟩
  case hour =>
    have h : s.ClockWf := ⟨by omega, by omega⟩
    have hcomposite := h.ticks_composite 3600
    obtain ⟨hsec', hmin'⟩ := h.ticks 3600
    exact ⟨by omega, by omega⟩
  case round =>
    have hcomposite := h.ticks_composite 6000
    obtain ⟨hsec', hmin'⟩ := h.ticks 6000
    obtain ⟨hsec, hmin⟩ := h
    have hseconds : (State.ticks 6000 s).seconds = s.seconds := by omega
    have hminutes : (State.ticks 6000 s).minutes = s.minutes := by omega
    rw [State.ticks_eq_with_clock, hseconds, hminutes]

/-! ### The main loop's accesses -/

/-- `j` listed ticks are `j` TICKs. -/
theorem runSteps_listed_ticks (j : Nat) (s : State) (ms : List Move) :
    runSteps j { s with inputs := List.replicate j .tick ++ ms } = .next { State.ticks j s with inputs := ms } := by
  have hrun := (State.Advances.zero s).run_listed (List.replicate j .tick) ms
    (fun m hm => .inr (by rw [List.eq_of_mem_replicate hm]; rfl)) (by simp [Move.isGo])
  rw [List.length_replicate] at hrun
  rw [hrun, List.countP_replicate, State.ticks_eq_with_clock j s]
  rfl

theorem State.ticks_withAgenda (k : Nat) (s : State) (ops : List HostOp) :
    State.ticks k (s.withAgenda ops) = (State.ticks k s).withAgenda ops := by
  induction k generalizing s with
  | zero => rfl
  | succ k ih => exact ih s.tick

theorem State.ticks_phase (k : Nat) (s : State) : (State.ticks k s).phase = s.phase := by
  rw [State.ticks_eq_with_clock]

theorem State.ticks_trace (k : Nat) (s : State) : (State.ticks k s).trace = s.trace := by
  rw [State.ticks_eq_with_clock]

theorem runSteps_one (s : State) : runSteps 1 s = step s := by
  rw [runSteps_succ_eq]
  cases step s with
  | next t => rfl
  | fault r => rfl
  | refused r => rfl

/-- R206: two operations of the main loop, the first of which puts the second in front, with `j` ticks delivered between
them. -/
theorem runSteps_hostOps {s v : State} {op op' : HostOp} {rest rest' : List HostOp} {p1 : Pins} (hidle : s.phase = .idle)
    (hagenda : s.agenda = op :: rest)
    (hop : ∀ ms, hostOp op p1 { s with agenda := rest, inputs := ms } =
      .next { v.withAgenda (op' :: rest') with inputs := ms })
    (hidle' : v.phase = .idle) (p2 : Pins) (j : Nat) (ms : List Move) :
    runSteps (j + 2) { s with inputs := .go p1 :: (List.replicate j .tick ++ .go p2 :: ms) } =
      hostOp op' p2 { State.ticks j v with agenda := rest', inputs := ms } := by
  have hfirst := (step_listed_hostOp hidle hagenda p1 (List.replicate j .tick ++ .go p2 :: ms)).trans (hop _)
  have hticks := runSteps_listed_ticks j (v.withAgenda (op' :: rest')) (.go p2 :: ms)
  rw [State.ticks_withAgenda] at hticks
  rw [runSteps_succ (j + 1) hfirst, runSteps_add j 1 hticks, runSteps_one]
  exact step_listed_hostOp (s := (State.ticks j v).withAgenda (op' :: rest')) ((State.ticks_phase j v).trans hidle') rfl
    p2 ms

/-- R211, R206: the two reads in either order, with `j` ticks between them. -/
theorem runSteps_readTime {s : State} {rest : List HostOp} (hidle : s.phase = .idle)
    (hagenda : s.agenda = .readTime :: rest) (p1 p2 : Pins) (j : Nat) (ms : List Move) :
    runSteps (j + 2) { s with inputs := .go p1 :: (List.replicate j .tick ++ .go p2 :: ms) } =
      .next { State.ticks j s with
        agenda := .render
          (if p1.minutesFirst = true then s.minutes * 100 + (State.ticks j s).seconds
            else (State.ticks j s).minutes * 100 + s.seconds : Nat) true 1 :: rest
        inputs := ms } := by
  cases horder : p1.minutesFirst with
  | true =>
    exact runSteps_hostOps (op' := .readSeconds s.minutes) (rest' := rest) hidle hagenda
      (fun ms => by simp only [hostOp, hostReadTime, horder]; rfl) hidle p2 j ms
  | false =>
    exact runSteps_hostOps (op' := .readMinutes s.seconds) (rest' := rest) hidle hagenda
      (fun ms => by simp only [hostOp, hostReadTime, horder]; rfl) hidle p2 j ms

/-- R202, R206: `minutes` first, with `j` ticks before the write of `seconds`. -/
theorem runSteps_clkReset_minutes {s : State} {rest : List HostOp} (hidle : s.phase = .idle)
    (hagenda : s.agenda = .clkReset :: rest) {p1 : Pins} (horder : p1.minutesFirst = true) (p2 : Pins) (j : Nat)
    (ms : List Move) :
    runSteps (j + 2) { s with inputs := .go p1 :: (List.replicate j .tick ++ .go p2 :: ms) } =
      .next { State.ticks j s.clearMinutes with seconds := 0, agenda := rest, inputs := ms } :=
  runSteps_hostOps (op' := .clearSeconds) (rest' := rest) (v := s.clearMinutes) hidle hagenda
    (fun _ => hostOp_clkReset_minutes horder _) hidle p2 j ms

/-- R202, R206: `seconds` first, with `j` ticks before the write of `minutes`. -/
theorem runSteps_clkReset_seconds {s : State} {rest : List HostOp} (hidle : s.phase = .idle)
    (hagenda : s.agenda = .clkReset :: rest) {p1 : Pins} (horder : p1.minutesFirst = false) (p2 : Pins) (j : Nat)
    (ms : List Move) :
    runSteps (j + 2) { s with inputs := .go p1 :: (List.replicate j .tick ++ .go p2 :: ms) } =
      .next { State.ticks j s.clearSeconds with minutes := 0, agenda := rest, inputs := ms } :=
  runSteps_hostOps (op' := .clearMinutes) (rest' := rest) (v := s.clearSeconds) hidle hagenda
    (fun _ => hostOp_clkReset_seconds horder _) hidle p2 j ms

/-! ### The branches of the main loop -/

theorem hostOp_pollMode_low {p : Pins} (h : p.modeLevel = false) (s : State) :
    hostOp .pollMode p s = .next (s.push [.sampleAnalog, .pollReset]) := by
  simp [hostOp, hostPollMode, Pins.modeAsserted, h]

theorem hostOp_pollMode_high {p : Pins} (h : p.modeLevel = true) (s : State) :
    hostOp .pollMode p s = .next (s.push [.readTime, .pollReset]) := by
  simp [hostOp, hostPollMode, Pins.modeAsserted, h]

/-! ### The statements -/

/-- Settles O42: the counter read first is the old one and the other the new one, and the ticks stay counted. -/
theorem tornReads : Obligations.TornReads := by
  intro s p1 p2 j rest moves hidle hagenda
  exact ⟨_, runSteps_readTime hidle hagenda p1 p2 j moves, rfl, rfl, rfl, rfl⟩

/-- Settles O43: the ticks act on the counter cleared first, and the one cleared last is 0. -/
theorem tornReset : Obligations.TornReset := by
  intro s p1 p2 j rest moves hidle hagenda
  cases horder : p1.minutesFirst with
  | true =>
    exact ⟨_, runSteps_clkReset_minutes hidle hagenda horder p2 j moves, rfl, rfl, State.ticks_trace j s.clearMinutes,
      fun _ => ⟨rfl, rfl⟩, nofun⟩
  | false =>
    exact ⟨_, runSteps_clkReset_seconds hidle hagenda horder p2 j moves, rfl, rfl, State.ticks_trace j s.clearSeconds,
      nofun, fun _ => ⟨rfl, rfl⟩⟩

/-- Settles O41: with no tick between them the two writes clear both counters; each is a step, and a tick listed after the
first is the next step. -/
theorem clkResetClears : Obligations.ClkResetClears := by
  intro s p1 p2 rest moves hidle hagenda
  have hfirst (ms : List Move) := step_listed_hostOp hidle hagenda p1 ms
  cases horder : p1.minutesFirst with
  | true =>
    simp only [hostOp_clkReset_minutes horder] at hfirst
    exact ⟨runSteps_clkReset_minutes hidle hagenda horder p2 0 moves, fun _ => hfirst moves, nofun,
      _, hfirst (.tick :: moves), rfl, step_tick rfl⟩
  | false =>
    simp only [hostOp_clkReset_seconds horder] at hfirst
    exact ⟨runSteps_clkReset_seconds hidle hagenda horder p2 0 moves, nofun, fun _ => hfirst moves,
      _, hfirst (.tick :: moves), rfl, step_tick rfl⟩

/-- Settles O45: the level at the mode test chooses the branch, and without a tick the two reads see one pair of
counters. -/
theorem modeAndTimeBranches : Obligations.ModeAndTimeBranches := by
  intro s p1 p2 p3 rest moves hidle hagenda
  refine ⟨fun hlow => ?voltage, fun hhigh => ?time, fun hclock => ?range⟩
  case voltage =>
    exact runSteps_hostOps (op' := .sampleAnalog) (rest' := .pollReset :: rest) (v := s) hidle hagenda
      (fun _ => hostOp_pollMode_low hlow _) hidle p2 0 moves
  case time =>
    have hpoll := (step_listed_hostOp hidle hagenda p1 (.go p2 :: .go p3 :: moves)).trans (hostOp_pollMode_high hhigh _)
    have hread := runSteps_readTime (s := s.withAgenda (.readTime :: .pollReset :: rest)) hidle rfl p2 p3 0 moves
    have hvalue : (if p2.minutesFirst = true then s.minutes * 100 + (State.ticks 0 s).seconds
        else (State.ticks 0 s).minutes * 100 + s.seconds) = s.minutes * 100 + s.seconds := ite_self _
    refine (runSteps_succ 2 hpoll).trans (hread.trans ?_)
    rw [← hvalue]
    rfl
  case range =>
    obtain ⟨hsec, hmin⟩ := hclock
    omega

end Sys2Proof.Machine
